-- ==== Sys2Proof/Word.lean ====
section
/-! DEFINITION. The two data widths of the EJ410: the byte, and the 512-byte logical sector (section 0.6).
A sector is one bit vector whose byte 0 is the least significant: every multi-byte field of chapter 11 is stored
least significant byte first (R204), so a field is a run of bits. -/

namespace Sys2Proof

/-- A byte of a record. -/
abbrev Byte := BitVec 8

/-- A logical sector of 512 bytes; byte `b` is bits `8b .. 8b+7`. -/
abbrev Sector := BitVec 4096

/-- The zero-filled sector of R104. -/
def zeroSector : Sector := 0#4096

end Sys2Proof
end

