-- ==== Sys2Proof/Syntax.lean ====
section
/-! DEFINITION. The commands of the EJ410: one constructor per row of spec/opcode_table.json. A row's operands are what
the link or the drive supplies with the event: a frame's fields (R156), drawn or read sectors, a drive tag, an error's
LBA. A management request's parameters are bytes of the window write that carries it (R206), which the part already
holds when the row's step takes it, so those rows have no operand. -/

namespace Sys2Proof

/-- The tag of a recorder command: 0 .. 15 of a queued command, or untagged (R156). -/
inductive CmdTag where
  | tagged (t : Fin 16)
  | untagged
  deriving DecidableEq, Repr

/-- How the drive ends a request that returns no sector: good status, or an error with the LBA it reports, if any. -/
inductive DriveEnd where
  | good
  | error (lba : Option Nat)
  deriving DecidableEq, Repr

/-- How the drive ends a read of its identity sector. -/
inductive SectorEnd where
  | good (data : Sector)
  | error (lba : Option Nat)
  deriving DecidableEq, Repr

/-- The commands and events, in the order of the table. -/
inductive Instr where
  | powerOnReset
  | resetNRelease
  | recorderLinkReset
  | tick
  | attnPulseEnd
  | readPlain (feature : BitVec 16) (lba count : Nat)
  | readQueued (tag : Fin 16) (feature : BitVec 16) (lba count : Nat)
  | writePlain (feature : BitVec 16) (lba count : Nat)
  | writeQueued (tag : Fin 16) (feature : BitVec 16) (lba count : Nat)
  | discardPlain (feature : BitVec 16) (lba count : Nat)
  | discardQueued (tag : Fin 16) (feature : BitVec 16) (lba count : Nat)
  | flush (feature : BitVec 16) (lba count : Nat)
  | identify (feature : BitVec 16) (lba count : Nat)
  | otherCommand (code : BitVec 8) (feature : BitVec 16) (lba count : Nat)
  /-- The draw at the head of the link list completes with the recorder's sectors. -/
  | linkDataDrawn (data : List Sector)
  | linkDataDelivered
  | completionSent
  | arrivalRefusalSent
  /-- OPEN: the MGW takes an opening record. -/
  | openWindow
  | windowRead
  | windowWriteOther
  | unknownRequest
  | close
  | status
  | ident
  | format
  | setPolicy
  | lock
  | create
  | assign
  | unassign
  | setClear
  | setAuProtect
  | setLocked
  | seal
  | unseal
  | join
  | delete
  | purge
  | setFlags
  | readRegion
  | writeArea
  | readMap
  | ringAttach
  | ringDetach
  | ringRetention
  | ringInfo
  | ringChunks
  | clockSet
  | flushCache
  | setWindow
  | setAdmission
  | readAdmission
  | setTimeout
  | setEvents
  | restart
  | restartEffect
  | slotClearAll
  | driveReady
  | readyLimitExpiry
  | identityReadEnd (result : SectorEnd)
  | identityReadTimeout
  | tagGrant
  | plainIssue
  | deadlineExpiry
  /-- The drive ends the request on a drive tag with an error, naming the first failing LBA where it can (R180). -/
  | queuedError (tag : Fin 16) (lba : Option Nat)
  | catalogueReadComplete (tag : Fin 16) (data : Sector)
  | catalogueWriteComplete (tag : Fin 16)
  | readPieceComplete (tag : Fin 16) (data : List Sector)
  | mergeReadComplete (tag : Fin 16) (data : List Sector)
  | writePieceComplete (tag : Fin 16)
  | driveDiscardEnd (tag : Fin 16)
  | driveFlushEnd (result : DriveEnd)
  /-- The drive ends a PASS; `data` are the sectors it moves toward the recorder last, with its status (R164). -/
  | passEnd (result : DriveEnd) (data : List Sector)
  | identifyReadEnd (result : SectorEnd)
  | resolutionStart
  | slotWake
  | keyLoadReread (slot : Fin 24)
  | lockEntry
  /-- The WAITING-RANGE entry of this recorder tag is admitted to movement (R133). -/
  | moveAdmission (tag : CmdTag)
  | flushIssue
  | drainEnd
  | formatDrainEnd
  | detachWaitEnd
  deriving DecidableEq, Repr

end Sys2Proof
end

