-- ==== Sys2Proof/Config.lean ====
section
/-! DEFINITION. What the manual fixes (the figures of Table 0-2) and what it leaves to the part: the cipher, the key
wrapping, the key derivation, the integrity digest and the entropy source. Section 0.2 puts their construction outside
the manual and gives only their inputs and properties, so each is an uninterpreted constant with no body (assumption
log 3, 4). -/

namespace Sys2Proof.Config

/-- Sectors of an allocation unit (Table 0-2). -/
def auSectors : Nat := 65536
/-- Sectors of a chunk (Table 0-2). -/
def chunkSectors : Nat := 8192
/-- Sectors of the catalogue area (Table 0-2). -/
def catalogueSectors : Nat := 8192
/-- The largest usable space, 2^33 sectors (R1). -/
def maxUsable : Nat := 8589934592
/-- The smallest usable space, 2^21 + 8,192 sectors (R18). -/
def minUsable : Nat := 2105344
/-- Map entries of a map page (R4). -/
def pageEntries : Nat := 120
/-- Map pages of the catalogue area (R2). -/
def mapPages : Nat := 1093
/-- The highest region number. -/
def maxRegion : Nat := 4095
/-- The highest key record number. -/
def maxKey : Nat := 1023
/-- The saturation value of the protection clock (R106). -/
def clockMax : Nat := 4294967295
/-- REFCLK cycles in one second: REFCLK is 25 MHz (Table 0-3). -/
def cyclesPerSecond : Nat := 25000000
/-- REFCLK cycles of an ATTN pulse, 1 ms (R202). -/
def pulseCycles : Nat := 25000
/-- REFCLK cycles of the ready limit, 10 seconds (R174). -/
def readyCycles : Nat := 250000000

/-- The cipher of a data unit of `n` bits under a content key and a tweak (R99): a permutation of the unit, of which
R99 states one property, that deciphering under the same key and tweak gives the data back. -/
opaque cipher (n : Nat) (key : BitVec 256) (tweak : Nat) : Equiv.Perm (BitVec n)

/-- Shifting by two numbers below 1,024 takes a value to two values. -/
theorem shift_separate (k k' : Nat) (h : k < 1024) (h' : k' < 1024) (n : k ≠ k') (x : BitVec 256) :
    Equiv.addRight (BitVec.ofNat 256 k) x ≠ Equiv.addRight (BitVec.ofNat 256 k') x := by
  intro e
  have e := congrArg BitVec.toNat (add_left_cancel (show x + BitVec.ofNat 256 k = x + BitVec.ofNat 256 k' from e))
  simp only [BitVec.toNat_ofNat] at e
  rw [Nat.mod_eq_of_lt (by omega), Nat.mod_eq_of_lt (by omega)] at e
  exact n e

/-- A key wrap (R88): a wrap of content keys for each key record, whose inverse is the unwrap; an unwrap with the number
of another record gives another value. The defaults only show that such a wrap exists. -/
structure KeyWrap where
  wrap : Nat → Equiv.Perm (BitVec 256) := fun k => Equiv.addRight (BitVec.ofNat 256 k)
  separate : ∀ k k', k < 1024 → k' < 1024 → k ≠ k' → ∀ x, wrap k x ≠ wrap k' x := by exact shift_separate
  deriving Inhabited

/-- The key wrap under a wrapping key (R88). -/
opaque keyWrap (wrapping : BitVec 256) : KeyWrap

/-- The wrapping key the KST derives from the root key (R87). -/
opaque deriveWrapping (root : BitVec 256) : BitVec 256

/-- How far the tag key lies from the wrapping key, less one. -/
opaque deriveStep (root : BitVec 256) : Fin (2 ^ 256 - 2 + 1)

/-- The tag key the KST derives from the root key: any value but the wrapping key (R87). -/
def deriveTag (root : BitVec 256) : BitVec 256 := deriveWrapping root + 1 + BitVec.ofNat 256 (deriveStep root).val

/-- The 16-byte keyed digest over bytes 0 .. 495 of a sector, its LBA and a catalogue identity (R7). -/
opaque integrityTag (tagKey : BitVec 256) (content : BitVec 3968) (lba : Nat) (identity : BitVec 64) : BitVec 128

/-- The identity a sector other than the header is tagged and verified with while the header copy is cleared: a free value,
for R7 names the identity in that copy and gives none then (assumption log 37). -/
opaque clearedIdentity : BitVec 64

/-- The first value of each width the entropy source gives after a power-on reset (R89), by draw number. -/
opaque entropyKey (draw : Nat) : BitVec 256
/-- The first 64-bit draw after a power-on reset (R89). -/
opaque entropyIdentity (draw : Nat) : BitVec 64
/-- A later draw's distance from the last value of its width, less one: R89 discards a draw that equals it. -/
opaque entropyKeyStep (draw : Nat) : Fin (2 ^ 256 - 2 + 1)
/-- As `entropyKeyStep`, for the 64-bit identities. -/
opaque entropyIdentityStep (draw : Nat) : Fin (2 ^ 64 - 2 + 1)

/-- One move of the data phase a drive conducts for a PASS command: `more` sectors and one asked of the recorder, or at
least one sector sent to it (R164). -/
inductive PassMove where
  | toDrive (more : Nat)
  | toRecorder (first : Sector) (rest : List Sector)
  deriving DecidableEq, Repr

/-- The moves the drive makes for a PASS command, by the number of the PASS: a free value, for the drive is outside and no
row of the table carries them (R164; assumption log 11). -/
opaque passPhase (pass : Nat) : List PassMove

end Sys2Proof.Config
end

