-- ==== Sys2Proof/Machine/State.lean ====
section
/-! DEFINITION. The state of the EJ410, block by block as Table 0-1 lists the blocks, and its value right after reset.

`Settings` holds what only resets, the 1 Hz tick and management requests change: the OTP, the timer, the protection
clock, the catalogue lock, the fixed windows, the admission table, the drive request timeout, the event mask and the
line mode. `Core` holds everything the blocks change as they work. The blocks' functions take the settings and change
the core. -/

namespace Sys2Proof.Machine

/-! ### Reasons a step stops -/

/-- Faults. No rule of the manual stops the part on a command, so no step of this model ends in a fault: the type has no
constructor (safe). -/
inductive Fault where
  deriving DecidableEq, Repr

/-- Refusals. -/
inductive Refusal where
  /-- Raised by `exec` alone, for a row that has no meaning yet (safe). No row of this model is refused. -/
  | notModelled (mnemonic : String)
  deriving DecidableEq, Repr

/-! ### Names of chapter 11 -/

/-- The reasons of Table 11-14, those of the recorder link and those of the response record. -/
inductive Reason where
  | notReady | catalogue | protect | noAccess | noRing | keyLost | admission | windowBusy
  | unknownRequest | badParameter | badState | copyClass | conflict | locked | drive
  deriving DecidableEq, Repr

/-- The completion statuses of Table 7-6. -/
inductive LinkStatus where
  | good
  | refused (reason : Reason)
  | outOfRange
  | media (lba : Nat)
  | driveTimeout
  | sequence
  | tagInUse
  deriving DecidableEq, Repr

/-- The twelve event flags, in the order of Table 10-1. -/
inductive EventFlag where
  | requestDone | startUp | catalogueDamage | keyLost | protectRefusal | accessRefusal
  | admissionRefusal | ringExpired | driveTimeout | driveError | driveLost | clamped
  deriving DecidableEq, Repr

/-- The line mode of ATTN (R201). -/
inductive LineMode where
  | level | pulse
  deriving DecidableEq, Repr

/-- The kinds of recorder command (Table 7-1). -/
inductive CmdKind where
  | read | write | discard | flush | identify | other
  deriving DecidableEq, Repr

/-- The unassigned policy (R3). -/
inductive Policy where
  | clear | noAccess
  deriving DecidableEq, Repr

/-- The actions of a fixed window (R64). -/
inductive WindowAction where
  | clear | clearProtected | noAccess
  deriving DecidableEq, Repr

/-- The admission actions (R163). -/
inductive AdmissionAction where
  | pass | refuse
  deriving DecidableEq, Repr

/-- The copy classes (R28). -/
inductive CopyClass where
  | free | once | noMore | never
  deriving DecidableEq, Repr

/-- The region kinds (R27). -/
inductive RegionKind where
  | recording | ring
  deriving DecidableEq, Repr

/-- The region states (R25). -/
inductive RegionState where
  | empty | opened | sealed | forward | retired
  deriving DecidableEq, Repr

/-- The catalogue states (R16). -/
inductive CatState where
  | unknown | absent | formatting | ready
  deriving DecidableEq, Repr

/-- The start-up results (Table 1-9). -/
inductive StartUpResult where
  | cleared | ready | linkLost | unsuitable | noKeys | driveFailed | noCatalogue | incomplete | capacityMismatch
  deriving DecidableEq, Repr

/-- The link states (Table 8-1). -/
inductive LinkState where
  | down | bringUp | up | recovery | lost
  deriving DecidableEq, Repr

/-! ### Settings -/

/-- A fixed window (R64). -/
structure FixedWindow where
  enable : Bool
  base : BitVec 17
  mask : BitVec 17
  action : WindowAction
  deriving DecidableEq, Repr

/-- An admission entry (R163). -/
structure AdmissionEntry where
  enable : Bool
  codeValue : BitVec 8
  codeMask : BitVec 8
  featureValue : BitVec 16
  featureMask : BitVec 16
  action : AdmissionAction
  deriving DecidableEq, Repr

/-- The one-time-programmable memory: validity mark, root key, window code and the stored defaults (Table 0-1). -/
structure Otp where
  valid : Bool
  rootKey : BitVec 256
  windowCode : BitVec 64
  windows : List FixedWindow
  admission : List AdmissionEntry
  defaultAction : AdmissionAction
  mask : BitVec 12
  lineMode : LineMode
  timeout : Nat
  deriving DecidableEq, Repr

/-- What no step of the blocks' own work changes. -/
structure Settings where
  otp : Otp
  /-- REFCLK cycles since power-on: the timer of the drive deadlines, the ready limit and the ATTN pulse (R181). -/
  timer : Nat
  /-- The protection clock (R106). -/
  clock : Nat
  /-- The catalogue lock (R196). -/
  catalogueLock : Bool
  /-- The four fixed windows (R64). -/
  windows : List FixedWindow
  /-- The 16 admission entries and the default action (R163). -/
  admission : List AdmissionEntry
  defaultAction : AdmissionAction
  /-- The drive request timeout in seconds (R182). -/
  timeout : Nat
  /-- The event mask, bit n for row n+1 of Table 10-1, and the line mode (R201). -/
  mask : BitVec 12
  lineMode : LineMode
  deriving DecidableEq, Repr

/-! ### Event Unit -/

/-- The last-refusal record (R200). -/
structure LastRefusal where
  tag : CmdTag
  status : LinkStatus
  lba : Nat
  deriving DecidableEq, Repr

/-- The Event Unit: the flags, the pulse under way (the timer value at which it ends) and the last-refusal record. -/
structure Evu where
  flags : BitVec 12
  pulseEnd : Option Nat
  lastRefusal : Option LastRefusal
  deriving DecidableEq, Repr

/-! ### Recorder Link Port -/

/-- A command frame (R156). -/
structure Frame where
  code : BitVec 8
  feature : BitVec 16
  lba : Nat
  count : Nat
  tag : CmdTag
  deriving DecidableEq, Repr

/-- The holder of a command (Table 7-2). -/
inductive Holder where
  | csc | rsv | txe | mgw | dlp
  deriving DecidableEq, Repr

/-- The states of a command table entry (R157). -/
inductive EntryState where
  | screening | routed | statusHeld
  deriving DecidableEq, Repr

/-- An occupied entry of the recorder-link command table (Table 7-2). -/
structure CmdEntry where
  tag : CmdTag
  kind : CmdKind
  frame : Frame
  holder : Holder
  state : EntryState
  status : Option LinkStatus
  deriving DecidableEq, Repr

/-- What a data draw is for (R168); a write piece names its transfer list entry. -/
inductive DrawFor where
  | writePiece (id : Nat)
  | windowWrite
  | discardPayload
  | pass
  deriving DecidableEq, Repr

/-- Where a data delivery comes from (R168). -/
inductive DeliveryFrom where
  | transfer (id : Nat)
  | window
  | identify
  | pass
  deriving DecidableEq, Repr

/-- An exchange of the link list (R168). -/
inductive Exchange where
  | draw (tag : CmdTag) (use : DrawFor) (sectors : Nat)
  | delivery (tag : CmdTag) (source : DeliveryFrom) (data : List Sector)
  | completion (tag : CmdTag) (status : LinkStatus)
  | arrivalRefusal (tag : CmdTag) (status : LinkStatus)
  deriving DecidableEq, Repr

/-- The Recorder Link Port: the occupied entries of the command table, the link list, and the frames the recorder has
sent that the RLP does not yet take (R158, R161). -/
structure Rlp where
  table : List CmdEntry
  linkList : List Exchange
  held : List Frame
  deriving DecidableEq, Repr

/-! ### Catalogue Port -/

/-- A catalogue sector by its record (Table 1-2). -/
inductive CatSector where
  | header
  | page (p : Nat)
  | desc (r : Nat)
  | key (k : Nat)
  deriving DecidableEq, Repr

/-- A map entry (R4). -/
inductive MapEntry where
  | unassigned
  | clear (protect : Bool)
  | region (r : Nat) (protect : Bool)
  deriving DecidableEq, Repr

/-- The ring part of a descriptor (Table 1-4). -/
structure RingPart where
  firstAu : Nat
  auCount : Nat
  minutes : Nat
  deriving DecidableEq, Repr

/-- A region descriptor (R5). -/
structure Desc where
  state : RegionState
  kind : RegionKind
  cls : CopyClass
  unit : Nat
  key : Nat
  locked : Bool
  played : Bool
  written : Bool
  ring : Option RingPart
  forward : Option Nat
  area : List Byte
  deriving DecidableEq, Repr

/-- A key record (R6). -/
structure KeyRec where
  live : Bool
  unit : Nat
  count : Nat
  wrapped : BitVec 256
  deriving DecidableEq, Repr

/-- The catalogue header (R3); its version is 1. -/
structure Header where
  complete : Bool
  identity : BitVec 64
  capacity : Nat
  policy : Policy
  deriving DecidableEq, Repr

/-- The verified content of a catalogue sector. -/
inductive CatContent where
  | header (h : Header)
  | page (entries : List MapEntry)
  | desc (d : Desc)
  | key (k : KeyRec)
  deriving DecidableEq, Repr

/-- The placement figures (Table 1-1). -/
structure Placement where
  usable : Nat
  base : Nat
  reported : Nat
  auCount : Nat
  pages : Nat
  deriving DecidableEq, Repr

/-- Who asked for a catalogue access (Table 1-6). `discarded` is a read whose requester a reset or a slot clearing has
ended; the `orphan` forms are those of a flag update a recorder-link reset has ended, which still holds its lock (R14). -/
inductive AccessOwner where
  | startUp
  | walk
  | flagUpdate
  | keyLoad (slot : Nat)
  | request
  | format
  | discarded
  | orphanRead
  | orphanWrite
  deriving DecidableEq, Repr

/-- What a catalogue write changed, for its change notice (Table 1-7). -/
inductive Notice where
  | none
  | page (p : Nat) (changed : List Nat)
  | edit (r : Nat)
  | flags (r : Nat) (played written : Bool) (d : Desc)
  | key (k : Nat) (live : Bool)
  deriving DecidableEq, Repr

/-- The direction of a catalogue access; a write carries the whole tagged sector and its notice. -/
inductive AccessDir where
  | read
  | write (data : Sector) (notice : Notice)
  deriving DecidableEq, Repr

/-- A catalogue access (R9); `seq` is its place in the order the CTP took the accesses. -/
structure Access where
  seq : Nat
  sector : CatSector
  dir : AccessDir
  owner : AccessOwner
  deriving DecidableEq, Repr

/-- The holders of a sector lock (R14). -/
inductive LockHolder where
  | request | resolver | orphan
  deriving DecidableEq, Repr

/-- An entry of the sector lock list; accesses of number `since` and above were taken after it entered. -/
structure Lock where
  sector : CatSector
  holder : LockHolder
  since : Nat
  deriving DecidableEq, Repr

/-- A lock request that waits to enter the list (R14). -/
structure LockWait where
  sector : CatSector
  holder : LockHolder
  deriving DecidableEq, Repr

/-- The Catalogue Port: state, start-up result, placement, header copy (identity, policy), lock list, waiting lock
requests, access queue, and the number of the next access. -/
structure Ctp where
  state : CatState
  startUp : StartUpResult
  placement : Placement
  identity : Option (BitVec 64)
  policy : Option Policy
  locks : List Lock
  lockWait : List LockWait
  queue : List Access
  seq : Nat
  deriving DecidableEq, Repr

/-! ### Region Resolver -/

/-- A transfer command as the RSV and the TXE carry it; `id` tells it from every other since power-on. -/
structure Xfer where
  id : Nat
  tag : CmdTag
  kind : CmdKind
  start : Nat
  count : Nat
  ranges : List (Nat × Nat)
  deriving DecidableEq, Repr

/-- What a cache entry of kind REGION holds (R69). -/
structure RegionInfo where
  region : Nat
  forward : Option Nat
  kind : RegionKind
  sealed : Bool
  cls : CopyClass
  unit : Nat
  key : Nat
  locked : Bool
  played : Bool
  written : Bool
  deriving DecidableEq, Repr

/-- A valid entry of the region cache (R69); `region` is absent for kind CLEAR. -/
structure CacheEntry where
  au : Nat
  protect : Bool
  region : Option RegionInfo
  deriving DecidableEq, Repr

/-- A set of the region cache: its 4 ways (absent when invalid) and its replacement counter (R69). -/
structure CacheSet where
  ways : List (Option CacheEntry)
  counter : Nat
  deriving DecidableEq, Repr

/-- The dispositions a segment is handed on with (Table 3-2). -/
inductive Disp where
  | clear | cipher | zero
  deriving DecidableEq, Repr

/-- A segment of the resolution in progress: its sectors and AU, the window that matched it, whether it made its lookup
and was walked, the sectors its walk acted on, its stale mark, and what it settled to. -/
structure Seg where
  first : Nat
  count : Nat
  au : Nat
  window : Option WindowAction
  looked : Bool
  walked : Bool
  used : List CatSector
  stale : Bool
  disp : Option Disp
  entry : Option CacheEntry
  ctx : Option Nat
  slot : Option Nat
  deriving DecidableEq, Repr

/-- Where the resolution in progress stands (R59): walking segment `i`; a flag update of region `r` waiting for its
lock, its locked read or its write; the slot request of segment `i` in WAITING-SLOT, or waiting for the load of a slot
(`own` when the request itself began that load). -/
inductive RsvPhase where
  | walking (i : Nat)
  | flagLock (r : Nat)
  | flagRead (r : Nat)
  | flagWrite (r : Nat)
  | slotWait (i : Nat)
  | loadWait (i slot : Nat) (own : Bool)
  deriving DecidableEq, Repr

/-- The resolution in progress: the command, its segments in plan order, the catalogue content it has read and may
still use (R75), its phase, and the regions whose flag updates are still to run (R82). -/
structure Resolution where
  cmd : Xfer
  segs : List Seg
  memo : List (CatSector × CatContent)
  phase : RsvPhase
  updates : List Nat
  deriving DecidableEq, Repr

/-- The Region Resolver: the resolution queue, the resolution in progress, the region cache and the number of the next
transfer command. -/
structure Rsv where
  queue : List Xfer
  current : Option Resolution
  cache : List CacheSet
  nextId : Nat
  deriving DecidableEq, Repr

/-! ### Key Store -/

/-- The key slot states (Table 4-2). -/
inductive SlotState where
  | empty | loading | ready | clearing
  deriving DecidableEq, Repr

/-- A key slot (Table 4-1). `parked` is the content of a load's read that ended while a later lock on the record is
held; `reread` says that the load must read again (R94). -/
structure Slot where
  state : SlotState
  record : Option Nat
  key : Option (BitVec 256)
  unit : Nat
  use : Nat
  parked : Option (Option KeyRec)
  reread : Bool
  deriving DecidableEq, Repr

/-- The keys derived and held at power-on reset (R87). -/
structure Keys where
  root : BitVec 256
  wrapping : BitVec 256
  tag : BitVec 256
  deriving DecidableEq, Repr

/-- The Key Store: its keys, the 24 slots, the reuse list, the entropy source's last value of each width and draw
number (R89), and whether RESTART's clearing of the slots is still to come (R97). -/
structure Kst where
  keys : Option Keys
  slots : List Slot
  reuse : List Nat
  lastKey : Option (BitVec 256)
  lastIdentity : Option (BitVec 64)
  draws : Nat
  clearAll : Bool
  deriving DecidableEq, Repr

/-! ### Ring Unit -/

/-- A chunk record (R109). -/
inductive Chunk where
  | empty
  | stamped (stamp fill : Nat)
  deriving DecidableEq, Repr

/-- A ring context that is ATTACHED, or DETACHING (Table 5-1); a FREE context is absent. -/
structure RingCtx where
  detaching : Bool
  region : Nat
  first : Nat
  chunkCount : Nat
  never : Bool
  limit : Nat
  chunks : List Chunk
  deriving DecidableEq, Repr

/-! ### Transfer Engine -/

/-- A part of a ring READ segment (R117): its first LBA, its count, and whether it is DATA. -/
structure Part where
  first : Nat
  count : Nat
  data : Bool
  deriving DecidableEq, Repr

/-- A segment of a plan (Table 3-2), with what the RGU gives it at move admission and whether it has been reported
ended to the KST. -/
structure PlanSeg where
  first : Nat
  count : Nat
  disp : Disp
  slot : Option Nat
  unit : Nat
  ctx : Option Nat
  region : Option Nat
  forward : Option Nat
  ringTime : Option Nat
  limit : Option Nat
  parts : List Part
  reported : Bool
  deriving DecidableEq, Repr

/-- The states of a transfer list entry (Table 6-2); COMPLETE is left at once. -/
inductive TxState where
  | waitingRange | moving | abandoned
  deriving DecidableEq, Repr

/-- An item of a segment in movement (R137): a merge read of the data unit at an LBA, a piece (for a ring READ, with
the DATA run its sectors are taken from), or a run of zero-filled sectors. -/
inductive Item where
  | mergeRead (lba : Nat)
  | piece (lba count dataFirst dataLast : Nat)
  | zeros (count : Nat)
  deriving DecidableEq, Repr

/-- A transfer list entry (Table 6-1). `ranges` is the range list of a DISCARD; `pos` is the segment in hand and `items` what is left of it; `out` are sectors
not yet handed to the RLP; `onLink` says that an exchange of the command is on the link list; `asked` that a drive
request of it is waiting for a tag or in the drive request table. -/
structure TxEntry where
  id : Nat
  tag : CmdTag
  kind : CmdKind
  start : Nat
  count : Nat
  ranges : List (Nat × Nat)
  plan : List PlanSeg
  compared : List (Nat × Nat)
  blockers : List Nat
  state : TxState
  pos : Nat
  items : List Item
  out : List (List Sector)
  onLink : Bool
  asked : Bool
  holds : List (Nat × List Sector)
  buffer : List Sector
  deriving DecidableEq, Repr

/-- The TXE's state for a FLUSH (R147). -/
inductive FlushState where
  | none | waiting | issued
  deriving DecidableEq, Repr

/-- The Transfer Engine. -/
structure Txe where
  list : List TxEntry
  flush : FlushState
  deriving DecidableEq, Repr

/-! ### Drive Link Port -/

/-- The drive identity: capacity in sectors and logical sector size in bytes (R174). -/
structure DriveIdentity where
  capacity : Nat
  sectorSize : Nat
  deriving DecidableEq, Repr

/-- The step of the bring-up attempt under way, with the timer value of its limit (R174). -/
inductive BringUp where
  | idle
  | waitReady (limit : Nat)
  | readIdentity (deadline : Nat)
  deriving DecidableEq, Repr

/-- The kinds of QUEUED request of the TXE. -/
inductive TxReqKind where
  | read | write | discard
  deriving DecidableEq, Repr

/-- A tag request of the TXE (R138, R145): the entry, the kind, the sectors, a write's data, a discard's range list. -/
structure TxReq where
  id : Nat
  kind : TxReqKind
  lba : Nat
  count : Nat
  data : List Sector
  ranges : List (Nat × Nat)
  deriving DecidableEq, Repr

/-- The kinds of PLAIN request (R178). -/
inductive PlainKind where
  | flush | identify | pass
  deriving DecidableEq, Repr

/-- A PLAIN request; `live` is clear once a reset has abandoned its command, and `data` are the sectors a PASS has
moved toward the drive. -/
structure PlainReq where
  kind : PlainKind
  frame : Option Frame
  live : Bool
  data : List Sector
  deriving DecidableEq, Repr

/-- The owner and content of a drive request (Table 8-2). -/
inductive ReqBody where
  | catalogue (a : Access)
  | transfer (t : TxReq)
  | plain (p : PlainReq)
  deriving DecidableEq, Repr

/-- An entry of the drive request table (Table 8-2). -/
structure DriveReq where
  tag : Nat
  body : ReqBody
  deadline : Nat
  deriving DecidableEq, Repr

/-- The Drive Link Port. `passes` is the model's own: the number of the next PASS, by which the free value of its data phase
is read (assumption log 11). -/
structure Dlp where
  link : LinkState
  identity : Option DriveIdentity
  attempts : Nat
  bring : BringUp
  table : List DriveReq
  ctpLine : List Access
  txeLine : List TxReq
  plain : List PlainReq
  passes : Nat
  deriving DecidableEq, Repr

/-! ### Management Window -/

/-- A window command handed to the MGW: a write with its drawn sectors, or a read (R162). -/
structure WinCmd where
  tag : CmdTag
  write : Bool
  start : Nat
  count : Nat
  data : List Sector
  deriving DecidableEq, Repr

/-- The status of the response record (R191). -/
inductive RespStatus where
  | none
  | inProgress
  | done (results : List Byte)
  | refused (reason : Reason)
  deriving DecidableEq, Repr

/-- The response record (R191). -/
structure Response where
  code : Nat
  serial : Nat
  status : RespStatus
  deriving DecidableEq, Repr

/-- The parameters of CREATE (R36). -/
structure CreateParams where
  region : Nat
  kind : RegionKind
  cls : CopyClass
  unit : Nat
  share : Bool
  source : Nat
  firstAu : Nat
  auCount : Nat
  minutes : Nat
  deriving DecidableEq, Repr

/-- A long request in progress, with its parameters (Table 9-4). -/
inductive Request where
  | format (policy : Policy)
  | setPolicy (policy : Policy)
  | create (p : CreateParams)
  | assign (r : Nat) (protect : Bool) (first count : Nat)
  | unassign (first count : Nat)
  | setClear (first count : Nat)
  | setAuProtect (first count : Nat) (on : Bool)
  | setLocked (r : Nat) (on : Bool)
  | seal (r : Nat)
  | unseal (r : Nat)
  | join (a b : Nat)
  | delete (r : Nat)
  | purge (r : Nat)
  | setFlags (r : Nat) (played written : Bool)
  | readRegion (r : Nat)
  | writeArea (r : Nat) (area : List Byte)
  | readMap (first count : Nat)
  | ringAttach (r x : Nat)
  | ringDetach (x : Nat)
  | ringRetention (r minutes : Nat)
  deriving DecidableEq, Repr

/-- Where a long request stands. The `check` stages are the check phase of R32, the `write` stages its write phase. -/
inductive Stage where
  | checkDesc | checkKey | checkRecount | checkSource | checkSourceKey | checkPages | checkNames | checkTarget
  | checkAll
  | writeKey | writeDesc | writePages | writeLast | writeHeader
  | draining | detaching
  | formatDrain | formatFirst | formatRecords | formatLast
  deriving DecidableEq, Repr

/-- A long request in progress: its stage, the index of the sector in hand, and what its checks have found: the
descriptors, the entries of the range, the regions still to be read, the recount, whether a forward stands against it,
the entries changed, the count left in the key record, the target of a PURGE that rewrites, the key record write of
CREATE, FORMAT's identity and outstanding writes, the drain set, the context it detaches. -/
structure Job where
  req : Request
  stage : Stage
  index : Nat
  descA : Option Desc
  descB : Option Desc
  entries : List MapEntry
  names : List Nat
  recount : Nat
  forwardFound : Bool
  changed : Nat
  keyCount : Nat
  target : Option Nat
  wrapped : BitVec 256
  identity : BitVec 64
  outstanding : Nat
  failed : Bool
  drain : List Nat
  ctx : Nat
  deriving DecidableEq, Repr

/-- RESTART between its request and its effect (R197): not asked for; its completion (of the write with this tag) not
yet sent; its completion sent. -/
inductive RestartState where
  | none
  | waiting (tag : CmdTag)
  | sent
  deriving DecidableEq, Repr

/-- The Management Window: OPEN or CLOSED, the window commands handed to it and not yet taken, the response record, the
long request in progress, and RESTART. -/
structure Mgw where
  opened : Bool
  inbox : List WinCmd
  response : Response
  job : Option Job
  restart : RestartState
  deriving DecidableEq, Repr

/-! ### The whole part -/

/-- What the blocks change as they work. -/
structure Core where
  evu : Evu
  rlp : Rlp
  rsv : Rsv
  ctp : Ctp
  kst : Kst
  /-- The four ring contexts of the RGU (R108). -/
  rings : List (Option RingCtx)
  txe : Txe
  dlp : Dlp
  mgw : Mgw
  deriving DecidableEq, Repr

/-- The state of the EJ410, with the commands that wait, first in, first out. -/
structure State where
  pending : List Instr
  set : Settings
  core : Core
  deriving DecidableEq, Repr

/-! ### Block updates -/

def Core.onEvu (c : Core) (f : Evu → Evu) : Core := { c with evu := f c.evu }
def Core.onRlp (c : Core) (f : Rlp → Rlp) : Core := { c with rlp := f c.rlp }
def Core.onRsv (c : Core) (f : Rsv → Rsv) : Core := { c with rsv := f c.rsv }
def Core.onCtp (c : Core) (f : Ctp → Ctp) : Core := { c with ctp := f c.ctp }
def Core.onKst (c : Core) (f : Kst → Kst) : Core := { c with kst := f c.kst }
def Core.onRings (c : Core) (f : List (Option RingCtx) → List (Option RingCtx)) : Core := { c with rings := f c.rings }
def Core.onTxe (c : Core) (f : Txe → Txe) : Core := { c with txe := f c.txe }
def Core.onDlp (c : Core) (f : Dlp → Dlp) : Core := { c with dlp := f c.dlp }
def Core.onMgw (c : Core) (f : Mgw → Mgw) : Core := { c with mgw := f c.mgw }

/-! ### Reset -/

/-- The placement figures of Table 1-1 before a start-up check, and on an UNSUITABLE or lost drive (R1, R18). -/
def Placement.zero : Placement := { usable := 0, base := 0, reported := 0, auCount := 0, pages := 0 }

/-- An EMPTY key slot (Table 4-2). -/
def Slot.emptySlot : Slot :=
  { state := .empty, record := none, key := none, unit := 1, use := 0, parked := none, reread := false }

/-- The response record in status NONE (R191). -/
def Response.blank : Response := { code := 0, serial := 0, status := .none }

/-- A cache set after power-on reset or RESTART: four invalid ways, counter 0 (R69). -/
def CacheSet.cleared : CacheSet := { ways := [none, none, none, none], counter := 0 }

/-- A disabled window, and a disabled admission entry, of a part without the OTP validity mark (R64, R163): the spec says
only that they are disabled, and the other fields are the model's (DESIGN CHOICE, assumption log 33). -/
def FixedWindow.disabled : FixedWindow := { enable := false, base := 0, mask := 0, action := .clear }
def AdmissionEntry.disabled : AdmissionEntry :=
  { enable := false, codeValue := 0, codeMask := 0, featureValue := 0, featureMask := 0, action := .pass }

/-- The OTP of the part that `State.reset` describes: valid, with a root key and a window code of zero, the defaults
disabled and REFUSE, and the 8 second timeout of shipped parts (DESIGN CHOICE but for the timeout; assumption log 2). -/
def Otp.shipped : Otp :=
  { valid := true, rootKey := 0, windowCode := 0, windows := List.replicate 4 FixedWindow.disabled,
    admission := List.replicate 16 AdmissionEntry.disabled, defaultAction := .refuse, mask := 0, lineMode := .level,
    timeout := 8 }

/-- The drive request timeout that power-on reset takes from the OTP (R182). -/
def Otp.timeoutDefault (o : Otp) : Nat := if o.valid then max 1 (min 60 o.timeout) else 8

/-- The settings after power-on reset (R64, R106, R163, R182, R196, R201). -/
def Settings.powerOn (o : Otp) : Settings :=
  { otp := o, timer := 0, clock := 0, catalogueLock := false,
    windows := if o.valid then o.windows else List.replicate 4 FixedWindow.disabled,
    admission := if o.valid then o.admission else List.replicate 16 AdmissionEntry.disabled,
    defaultAction := if o.valid then o.defaultAction else .refuse,
    timeout := o.timeoutDefault,
    mask := if o.valid then o.mask else 0,
    lineMode := if o.valid then o.lineMode else .level }

/-- The keys the KST derives at power-on reset, when the OTP validity mark is present (R87). -/
def Otp.keys (o : Otp) : Option Keys :=
  if o.valid then
    some { root := o.rootKey, wrapping := Config.deriveWrapping o.rootKey, tag := Config.deriveTag o.rootKey }
  else none

/-- The blocks after power-on reset, with RESET_N held (R20, R60, R69, R90, R108, R130, R172, R173, R186, R191, R198,
R200). -/
def Core.powerOn (o : Otp) : Core :=
  { evu := { flags := 0, pulseEnd := none, lastRefusal := none }
    rlp := { table := [], linkList := [], held := [] }
    rsv := { queue := [], current := none, cache := List.replicate 16 CacheSet.cleared, nextId := 0 }
    ctp := { state := .unknown, startUp := .cleared, placement := Placement.zero, identity := none, policy := none,
             locks := [], lockWait := [], queue := [], seq := 0 }
    kst := { keys := o.keys, slots := List.replicate 24 Slot.emptySlot, reuse := [], lastKey := none,
             lastIdentity := none, draws := 0, clearAll := false }
    rings := [none, none, none, none]
    txe := { list := [], flush := .none }
    dlp := { link := .down, identity := none, attempts := 0, bring := .idle, table := [], ctpLine := [], txeLine := [],
             plain := [], passes := 0 }
    mgw := { opened := false, inbox := [], response := Response.blank, job := none, restart := .none } }

/-- The part after power-on reset with the OTP `o`, and no command waiting. -/
def State.powerOn (o : Otp) : State := { pending := [], set := Settings.powerOn o, core := Core.powerOn o }

/-- The machine right after reset: power-on reset, RESET_N still held. -/
def State.reset : State := State.powerOn Otp.shipped

end Sys2Proof.Machine
end

