-- ==== Sys2Proof/Machine/Formats.lean ====
section
/-! DEFINITION. Chapter 11: the byte layouts of the catalogue sectors, the window records and the identity sector, and
the codes of completions. Records are read and written as the numbers their bytes spell, byte 0 least significant
(R204). -/

namespace Sys2Proof.Machine

/-! ### Fields (R204) -/

/-- The field of `w` bytes at byte `o` of a record. -/
def field (v o w : Nat) : Nat := v / 2 ^ (8 * o) % 2 ^ (8 * w)

/-- A record of zero bytes but for `x` in the field of `w` bytes at byte `o`. -/
def place (o w x : Nat) : Nat := x % 2 ^ (8 * w) * 2 ^ (8 * o)

/-- The record with the field of `w` bytes at byte `o` replaced by `x`. -/
def replaceField (v o w x : Nat) : Nat := v - place o w (field v o w) + place o w x

/-- `w` bytes of `x`, least significant first. -/
def leBytes : Nat → Nat → List Byte
  | 0, _ => []
  | w + 1, x => BitVec.ofNat 8 x :: leBytes w (x / 256)

/-- The number a list of bytes spells, least significant first. -/
def ofBytes (bs : List Byte) : Nat := bs.foldr (fun b acc => b.toNat + 256 * acc) 0

/-- The number a run of sectors spells, the first lowest. -/
def joined (ss : List Sector) : Nat := ss.foldr (fun s acc => s.toNat + 2 ^ 4096 * acc) 0

/-- Sector `i` of a record. -/
def sectorOf (v i : Nat) : Sector := BitVec.ofNat 4096 (v / 2 ^ (4096 * i))

/-- `n` sectors holding the bytes of a record, padded with zeros. -/
def toSectors (n : Nat) (bs : List Byte) : List Sector := (List.range n).map (sectorOf (ofBytes bs))

/-- The number spelled by ASCII characters, the first lowest. -/
def ascii (cs : List Char) : Nat := cs.foldr (fun c acc => c.toNat + 256 * acc) 0

/-- 1 for set, 0 for clear. -/
def flagCode (b : Bool) : Nat := if b then 1 else 0

/-- A flag field: 0 or 1, and no other value. -/
def flagOf : Nat → Option Bool
  | 0 => some false
  | 1 => some true
  | _ => none

/-! ### Enumerated values (Table 11-9) -/

def RegionState.code : RegionState → Nat
  | .empty => 0 | .opened => 1 | .sealed => 2 | .forward => 3 | .retired => 4
def RegionState.ofCode : Nat → Option RegionState
  | 0 => some .empty | 1 => some .opened | 2 => some .sealed | 3 => some .forward | 4 => some .retired | _ => none
def RegionKind.code : RegionKind → Nat
  | .recording => 0 | .ring => 1
def RegionKind.ofCode : Nat → Option RegionKind
  | 0 => some .recording | 1 => some .ring | _ => none
def CopyClass.code : CopyClass → Nat
  | .free => 0 | .once => 1 | .noMore => 2 | .never => 3
def CopyClass.ofCode : Nat → Option CopyClass
  | 0 => some .free | 1 => some .once | 2 => some .noMore | 3 => some .never | _ => none
def Policy.code : Policy → Nat
  | .clear => 0 | .noAccess => 1
def Policy.ofCode : Nat → Option Policy
  | 0 => some .clear | 1 => some .noAccess | _ => none
def WindowAction.ofCode : Nat → Option WindowAction
  | 0 => some .clear | 1 => some .clearProtected | 2 => some .noAccess | _ => none
def AdmissionAction.code : AdmissionAction → Nat
  | .pass => 0 | .refuse => 1
def AdmissionAction.ofCode : Nat → Option AdmissionAction
  | 0 => some .pass | 1 => some .refuse | _ => none
def LineMode.code : LineMode → Nat
  | .level => 0 | .pulse => 1
def LineMode.ofCode : Nat → Option LineMode
  | 0 => some .level | 1 => some .pulse | _ => none
def CatState.code : CatState → Nat
  | .unknown => 0 | .absent => 1 | .formatting => 2 | .ready => 3
def LinkState.code : LinkState → Nat
  | .down => 0 | .bringUp => 1 | .up => 2 | .recovery => 3 | .lost => 4
def StartUpResult.code : StartUpResult → Nat
  | .cleared => 0 | .ready => 1 | .linkLost => 2 | .unsuitable => 3 | .noKeys => 4 | .driveFailed => 5
  | .noCatalogue => 6 | .incomplete => 7 | .capacityMismatch => 8

/-- A unit size is 1 or 8. -/
def unitOf : Nat → Option Nat
  | 1 => some 1
  | 8 => some 8
  | _ => none

/-! ### Completion codes (R208) -/

/-- Table 11-14. -/
def Reason.code : Reason → Nat
  | .notReady => 0x01 | .catalogue => 0x02 | .protect => 0x03 | .noAccess => 0x04 | .noRing => 0x05 | .keyLost => 0x06
  | .admission => 0x07 | .windowBusy => 0x08 | .unknownRequest => 0x10 | .badParameter => 0x11 | .badState => 0x12
  | .copyClass => 0x13 | .conflict => 0x14 | .locked => 0x15 | .drive => 0x16

/-- Table 11-13. -/
def LinkStatus.code : LinkStatus → Nat
  | .good => 0 | .refused _ => 1 | .outOfRange => 2 | .media _ => 3 | .driveTimeout => 4 | .sequence => 5 | .tagInUse => 6

/-- The error detail of a completion (R169). -/
def LinkStatus.detail : LinkStatus → Nat
  | .refused r => r.code
  | .media lba => lba
  | _ => 0

/-- The reason code recorded with a status: that of REFUSED, else 0 (Table 11-10). -/
def LinkStatus.reasonCode : LinkStatus → Nat
  | .refused r => r.code
  | _ => 0

/-- The tag of a command as STATUS reports it: FFh for untagged (Table 11-10). -/
def tagCode : CmdTag → Nat
  | .tagged t => t.val
  | .untagged => 0xFF

/-! ### Catalogue placement (R2) -/

/-- Table 1-2. -/
def CatSector.offset : CatSector → Nat
  | .header => 0
  | .page p => 1 + p
  | .desc r => 1100 + r
  | .key k => 5200 + k

/-- The absolute LBA of a catalogue sector. -/
def CatSector.lba (p : Placement) (x : CatSector) : Nat := p.base + x.offset

/-! ### The catalogue header (Table 11-1) -/

def signatureComplete : Nat := ascii ['E', 'J', 'C', 'A', 'T', 'C', 'M', 'P']
def signatureFormatting : Nat := ascii ['E', 'J', 'C', 'A', 'T', 'F', 'M', 'T']

def Header.encode (h : Header) : Nat :=
  place 0 8 (if h.complete then signatureComplete else signatureFormatting) + place 8 2 1 +
    place 16 8 h.identity.toNat + place 24 8 h.capacity + place 32 1 h.policy.code

/-- The header's own identity field, which its tag is taken with (R7). -/
def headerIdentity (v : Nat) : BitVec 64 := BitVec.ofNat 64 (field v 16 8)

/-- The header, unless its signature or version is one the part does not know (R8); the policy is bit 0 of byte 32
(R204). -/
def Header.decode (v : Nat) : Option Header :=
  let sig := field v 0 8
  if (sig = signatureComplete ∨ sig = signatureFormatting) ∧ field v 8 2 = 1 then
    some { complete := decide (sig = signatureComplete), identity := headerIdentity v, capacity := field v 24 8,
           policy := if field v 32 1 % 2 = 0 then .clear else .noAccess }
  else none

/-! ### Map pages (Tables 11-2 and 11-3) -/

/-- The four bytes of a map entry. -/
def MapEntry.encode : MapEntry → Nat
  | .unassigned => 0
  | .clear p => place 2 1 1 + place 3 1 (flagCode p)
  | .region r p => place 0 2 r + place 2 1 2 + place 3 1 (flagCode p)

/-- A map entry, unless it breaks the rules of R4. -/
def MapEntry.decode (v : Nat) : Option MapEntry :=
  let r := field v 0 2
  match field v 2 1, flagOf (field v 3 1) with
  | 0, some false => if r = 0 then some .unassigned else none
  | 1, some p => if r = 0 then some (.clear p) else none
  | 2, some p => if 1 ≤ r ∧ r ≤ Config.maxRegion then some (.region r p) else none
  | _, _ => none

/-- The bytes of a run of map entries, 4 bytes each. -/
def encodeEntries (es : List MapEntry) : Nat := es.foldr (fun e acc => e.encode + 2 ^ 32 * acc) 0

def encodePage (p : Nat) (es : List MapEntry) : Nat := place 0 2 p + encodeEntries es * 2 ^ 32

/-- The first `n` map entries of a record that starts with them. -/
def decodeEntries : Nat → Nat → Option (List MapEntry)
  | 0, _ => some []
  | n + 1, v =>
    match MapEntry.decode (v % 2 ^ 32), decodeEntries n (v / 2 ^ 32) with
    | some e, some es => some (e :: es)
    | _, _ => none

/-- The 120 entries of map page `p`, unless the page is damaged (Table 1-5). -/
def decodePage (p v : Nat) : Option (List MapEntry) :=
  if field v 0 2 = p then decodeEntries Config.pageEntries (v / 2 ^ 32) else none

/-! ### Region descriptors (Table 11-4) -/

def Desc.encode (d : Desc) : Nat :=
  place 0 1 d.state.code + place 1 1 d.kind.code + place 2 1 d.cls.code + place 3 1 d.unit + place 4 2 d.key +
    place 6 1 (flagCode d.locked + 2 * flagCode d.played + 4 * flagCode d.written) +
    place 7 1 (flagCode d.ring.isSome + 2 * flagCode d.forward.isSome) +
    place 8 4 ((d.ring.map RingPart.firstAu).getD 0) + place 12 2 ((d.ring.map RingPart.auCount).getD 0) +
    place 14 2 ((d.ring.map RingPart.minutes).getD 0) + place 16 2 (d.forward.getD 0) + place 18 2 d.area.length +
    place 20 256 (ofBytes d.area)

/-- The ring part, absent when byte 7 says so; none when a field lies outside its range. -/
def decodeRingPart (present : Bool) (v : Nat) : Option (Option RingPart) :=
  let p : RingPart := { firstAu := field v 8 4, auCount := field v 12 2, minutes := field v 14 2 }
  if present then
    if p.firstAu ≤ 131071 ∧ 1 ≤ p.auCount ∧ p.auCount ≤ 256 ∧ 1 ≤ p.minutes ∧ p.minutes ≤ 1440 then some (some p)
    else none
  else if p.firstAu = 0 ∧ p.auCount = 0 ∧ p.minutes = 0 then some none else none

/-- The forward target, absent when byte 7 says so; none when it lies outside its range. -/
def decodeForward (present : Bool) (v : Nat) : Option (Option Nat) :=
  let t := field v 16 2
  if present then if 1 ≤ t ∧ t ≤ Config.maxRegion then some (some t) else none
  else if t = 0 then some none else none

/-- The rules of Table 1-5 that relate a descriptor's fields. An EMPTY descriptor whose key record is not 0 is taken as
good: Table 1-4 gives "0 when EMPTY", Table 11-4 allows 0 to 1,023, and Table 1-5 names only the other direction (DESIGN
CHOICE, assumption log 29). -/
def Desc.consistent (d : Desc) : Bool :=
  (d.ring.isSome == decide (d.kind = .ring)) && (d.forward.isSome == decide (d.state = .forward)) &&
    !(decide (d.cls = .never) && decide (d.kind = .recording)) && (decide (d.key ≠ 0) || decide (d.state = .empty))

/-- A region descriptor, unless it is damaged (Table 1-5, Table 11-4). -/
def Desc.decode (v : Nat) : Option Desc :=
  let flags := field v 6 1
  let parts := field v 7 1
  let len := field v 18 2
  let area := field v 20 256
  match RegionState.ofCode (field v 0 1), RegionKind.ofCode (field v 1 1), CopyClass.ofCode (field v 2 1),
      unitOf (field v 3 1), decodeRingPart (parts % 2 == 1) v, decodeForward (parts / 2 % 2 == 1) v with
  | some st, some kd, some cl, some u, some ring, some fwd =>
    let d : Desc :=
      { state := st, kind := kd, cls := cl, unit := u, key := field v 4 2, locked := flags % 2 == 1,
        played := flags / 2 % 2 == 1, written := flags / 4 % 2 == 1, ring := ring, forward := fwd,
        area := leBytes len area }
    if d.key ≤ Config.maxKey ∧ flags < 8 ∧ parts < 4 ∧ len ≤ 256 ∧ area < 2 ^ (8 * len) ∧ d.consistent = true then some d
    else none
  | _, _, _, _, _, _ => none

/-- An EMPTY descriptor as FORMAT, JOIN and PURGE write it (R5). -/
def Desc.blank : Desc :=
  { state := .empty, kind := .recording, cls := .free, unit := 1, key := 0, locked := false, played := false,
    written := false, ring := none, forward := none, area := [] }

/-! ### Key records (Table 11-5) -/

def KeyRec.encode (k : KeyRec) : Nat :=
  place 0 1 (flagCode k.live) + place 1 1 k.unit + place 2 2 k.count + place 8 32 k.wrapped.toNat

/-- A key record, unless it is damaged (Table 1-5, Table 11-5). -/
def KeyRec.decode (v : Nat) : Option KeyRec :=
  match flagOf (field v 0 1), unitOf (field v 1 1) with
  | some live, some u =>
    let count := field v 2 2
    let wrapped := BitVec.ofNat 256 (field v 8 32)
    if count ≤ 4095 ∧ (live = true ↔ count ≠ 0) ∧ (live = true ∨ wrapped = 0) then
      some { live := live, unit := u, count := count, wrapped := wrapped }
    else none
  | _, _ => none

/-- An EMPTY key record of a unit size (R6). -/
def KeyRec.blank (unit : Nat) : KeyRec := { live := false, unit := unit, count := 0, wrapped := 0 }

/-! ### Integrity tags (R7, R8) -/

/-- Bytes 0 .. 495 of a sector. -/
def tagged (v : Nat) : BitVec 3968 := BitVec.ofNat 3968 v

/-- The sector with its tag in bytes 496 .. 511 (R204). -/
def sealSector (keys : Option Keys) (lba : Nat) (identity : BitVec 64) (v : Nat) : Sector :=
  match keys with
  | some k => BitVec.ofNat 4096 ((tagged v).toNat + place 496 16 (Config.integrityTag k.tag (tagged v) lba identity).toNat)
  | none => BitVec.ofNat 4096 (tagged v).toNat

/-- Whether the stored tag equals the recomputed one (R8); without a tag key nothing verifies (R19). -/
def tagVerifies (keys : Option Keys) (lba : Nat) (identity : BitVec 64) (s : Sector) : Bool :=
  match keys with
  | some k => decide (BitVec.ofNat 128 (field s.toNat 496 16) = Config.integrityTag k.tag (tagged s.toNat) lba identity)
  | none => false

/-- The bytes of a catalogue sector's content. -/
def CatContent.encode (x : CatSector) : CatContent → Nat
  | .header h => h.encode
  | .page es => encodePage (match x with | .page p => p | _ => 0) es
  | .desc d => d.encode
  | .key k => k.encode

/-- The fields of a catalogue sector, unless they make it damaged. -/
def decodeContent (x : CatSector) (v : Nat) : Option CatContent :=
  match x with
  | .header => (Header.decode v).map .header
  | .page p => (decodePage p v).map .page
  | .desc _ => (Desc.decode v).map .desc
  | .key _ => (KeyRec.decode v).map .key

/-- The identity a sector's tag is taken with (R7). While the header copy is cleared the spec gives none, and it is a free
value (DESIGN CHOICE, assumption log 37). -/
def identityFor (c : Ctp) (x : CatSector) (v : Nat) : BitVec 64 :=
  match x with
  | .header => headerIdentity v
  | _ => c.identity.getD Config.clearedIdentity

/-- The verified content of a sector read from the drive, or none when it is damaged (R8). -/
def verifySector (keys : Option Keys) (c : Ctp) (x : CatSector) (s : Sector) : Option CatContent :=
  if tagVerifies keys (x.lba c.placement) (identityFor c x s.toNat) s then decodeContent x s.toNat else none

/-- A sector as the CTP writes it: the layout's bytes, zeros elsewhere, and the tag (R11, R204). -/
def writtenSector (keys : Option Keys) (c : Ctp) (x : CatSector) (content : CatContent) : Sector :=
  let v := content.encode x
  sealSector keys (x.lba c.placement) (identityFor c x v) v

/-! ### Window records (R206) -/

/-- The opening mark of Table 11-6. -/
def openingMark : Nat := ascii ['E', 'J', 'W', 'I', 'N', 'O', 'P', 'N']

/-- The response record as bytes (Table 11-7); a record in status NONE has length 0. -/
def Response.bytes (r : Response) : List Byte :=
  let head (st reason len : Nat) : List Byte := leBytes 2 r.code ++ leBytes 2 r.serial ++ leBytes 1 st ++ leBytes 1 reason ++
    leBytes 2 len
  match r.status with
  | .none => []
  | .inProgress => head 1 0 0
  | .done results => head 2 0 results.length ++ results
  | .refused reason => head 3 reason.code 0

/-! ### The identity sector (Table 11-12, R207) -/

/-- The two figures the DLP takes at bring-up. -/
def identityFigures (s : Sector) : DriveIdentity :=
  let v := s.toNat
  { capacity := field v 200 8,
    sectorSize := if field v 212 2 / 2 ^ 12 % 2 = 1 then 2 * field v 234 4 else 512 }

/-- The sum of the 512 bytes of a sector. -/
def byteSum (v : Nat) : Nat → Nat
  | 0 => 0
  | n + 1 => field v n 1 + byteSum v n

/-- The identity sector as the RLP sends it to the recorder (R167, R207). -/
def rewriteIdentity (rc : Nat) (windowCode : BitVec 64) (s : Sector) : Sector :=
  let v := replaceField s.toNat 120 4 (min rc 268435455)
  let v := replaceField v 150 2 (field v 150 2 / 32 * 32 + 15)
  let v := replaceField v 200 8 rc
  let v := replaceField v 258 8 windowCode.toNat
  let v := if field v 510 1 = 0xA5 then
    replaceField v 511 1 ((256 - byteSum (replaceField v 511 1 0) 512 % 256) % 256) else v
  BitVec.ofNat 4096 v

end Sys2Proof.Machine
end

