-- ==== Sys2Proof/Machine/Flags.lean ====
section
/-! DEFINITION. The Event Unit (chapter 10): raising a flag, the ATTN line, the STATUS results, the last-refusal record.
No block has arithmetic flags; the twelve event flags are the part's flags. -/

namespace Sys2Proof.Machine

/-- A flag's bit, its row of Table 10-1 less one. -/
def EventFlag.bit : EventFlag → Nat
  | .requestDone => 0 | .startUp => 1 | .catalogueDamage => 2 | .keyLost => 3 | .protectRefusal => 4
  | .accessRefusal => 5 | .admissionRefusal => 6 | .ringExpired => 7 | .driveTimeout => 8 | .driveError => 9
  | .driveLost => 10 | .clamped => 11

/-- Whether a flag is set in a word of flags, or masked in a mask. -/
def EventFlag.inWord (f : EventFlag) (w : BitVec 12) : Bool := w.getLsbD f.bit

/-- The word with one flag set. -/
def EventFlag.word (f : EventFlag) : BitVec 12 := BitVec.ofNat 12 (2 ^ f.bit)

/-- Raising a flag sets it (R198); in PULSE mode an unmasked flag that goes from clear to set starts the 1 ms pulse, or
extends the one under way (R202). -/
def Evu.raise (g : Settings) (f : EventFlag) (e : Evu) : Evu :=
  if f.inWord e.flags then e
  else
    { e with
      flags := e.flags ||| f.word
      pulseEnd := if g.lineMode = .pulse ∧ f.inWord g.mask = false then some (g.timer + Config.pulseCycles)
        else e.pulseEnd }

def raiseFlag (g : Settings) (f : EventFlag) (c : Core) : Core := c.onEvu (Evu.raise g f)

/-- Raises a flag where a condition calls for it. -/
def raiseWhen (g : Settings) (b : Bool) (f : EventFlag) (c : Core) : Core := if b then raiseFlag g f c else c

/-- Whether ATTN is asserted: LEVEL follows the unmasked flags, PULSE the pulse under way (R201, R202). -/
def attnAsserted (g : Settings) (e : Evu) : Bool :=
  match g.lineMode with
  | .level => decide (e.flags &&& ~~~g.mask ≠ 0)
  | .pulse => e.pulseEnd.isSome

/-- A hand-off to the last-refusal record replaces every field (R200). -/
def recordRefusal (tag : CmdTag) (status : LinkStatus) (lba : Nat) (c : Core) : Core :=
  c.onEvu fun e => { e with lastRefusal := some { tag := tag, status := status, lba := lba } }

/-- Bytes 12 .. 23 of the STATUS results (Table 11-10). Byte 15, which the table does not list, is 0 (DESIGN CHOICE,
assumption log 36). -/
def lastRefusalBytes : Option LastRefusal → List Byte
  | none => leBytes 12 0
  | some r => leBytes 1 (tagCode r.tag) ++ leBytes 1 r.status.code ++ leBytes 1 r.status.reasonCode ++ leBytes 1 0 ++
      leBytes 8 r.lba

/-- The STATUS results (Tables 10-2 and 11-10). -/
def statusResults (g : Settings) (c : Core) : List Byte :=
  leBytes 2 c.evu.flags.toNat ++ leBytes 2 g.mask.toNat ++ leBytes 1 g.lineMode.code ++ leBytes 1 c.ctp.state.code ++
    leBytes 1 c.dlp.link.code ++ leBytes 1 (flagCode c.evu.lastRefusal.isSome) ++ leBytes 4 g.clock ++
    lastRefusalBytes c.evu.lastRefusal

/-- STATUS clears the flags it has reported (R199). -/
def clearReported (reported : BitVec 12) (c : Core) : Core :=
  c.onEvu fun e => { e with flags := e.flags &&& ~~~reported }

/-- SET-EVENTS: into LEVEL a pulse under way ends; into PULSE the line is released; a PULSE mode kept lets the pulse run
to its end (R203). -/
def setEvents (mask : BitVec 12) (mode : LineMode) (s : State) : State :=
  let keep : Bool := decide (mode = .pulse) && decide (s.set.lineMode = .pulse)
  { s with
    set := { s.set with mask := mask, lineMode := mode }
    core := s.core.onEvu fun e => { e with pulseEnd := if keep then e.pulseEnd else none } }

end Sys2Proof.Machine
end

