-- ==== Sys2Proof/Machine/Operands.lean ====
section
/-! DEFINITION. The parameters of the management requests: their places in the request record, their lengths and the
values each accepts (R206, Table 11-8). A parameter function answers none where the request is refused BAD-PARAMETER
for its form. -/

namespace Sys2Proof.Machine

/-- The parameter of `w` bytes at parameter byte `o`: parameters begin at byte 8 of the record. -/
def param (v o w : Nat) : Nat := field v (8 + o) w

/-- A region number, 1 .. 4,095. -/
def regionOk (r : Nat) : Bool := decide (1 ≤ r) && decide (r ≤ Config.maxRegion)

/-- A key record number, 1 .. 1,023. -/
def keyOk (k : Nat) : Bool := decide (1 ≤ k) && decide (k ≤ Config.maxKey)

/-- An AU range (R33): a count within its bound and a last AU below the AU count. -/
def auRangeOk (p : Placement) (limit first count : Nat) : Bool :=
  decide (1 ≤ count) && decide (count ≤ limit) && decide (first + count - 1 < p.auCount)

/-- Retention minutes as CREATE and RING-RETENTION take them (Table 9-2). -/
def clampMinutes (m : Nat) : Nat := max 1 (min 1440 m)

/-- FORMAT and SET-POLICY. -/
def policyParam (v : Nat) : Option Policy := Policy.ofCode (param v 0 1)

/-- A request that names one region. -/
def regionParam (v : Nat) : Option Nat := if regionOk (param v 0 2) then some (param v 0 2) else none

/-- The AU range of UNASSIGN, SET-CLEAR, SET-AU-PROTECT (count up to 4,096) and READ-MAP (up to 120). -/
def auRangeParam (p : Placement) (limit v : Nat) : Option (Nat × Nat) :=
  if auRangeOk p limit (param v 0 4) (param v 4 2) then some (param v 0 4, param v 4 2) else none

/-- ASSIGN. -/
def assignParam (p : Placement) (v : Nat) : Option Request :=
  match regionParam v, flagOf (param v 2 1) with
  | some r, some on =>
    if auRangeOk p 4096 (param v 4 4) (param v 8 2) then some (.assign r on (param v 4 4) (param v 8 2)) else none
  | _, _ => none

/-- SET-AU-PROTECT. -/
def setAuProtectParam (p : Placement) (v : Nat) : Option Request :=
  match auRangeParam p 4096 v, flagOf (param v 6 1) with
  | some (first, count), some on => some (.setAuProtect first count on)
  | _, _ => none

/-- SET-LOCKED. -/
def setLockedParam (v : Nat) : Option Request :=
  match regionParam v, flagOf (param v 2 1) with
  | some r, some on => some (.setLocked r on)
  | _, _ => none

/-- SET-FLAGS. -/
def setFlagsParam (v : Nat) : Option Request :=
  match regionParam v, flagOf (param v 2 1), flagOf (param v 3 1) with
  | some r, some played, some written => some (.setFlags r played written)
  | _, _, _ => none

/-- JOIN: a equal to b is refused with the number ranges (R51). -/
def joinParam (v : Nat) : Option Request :=
  let a := param v 0 2
  let b := param v 2 2
  if regionOk a && regionOk b && decide (a ≠ b) then some (.join a b) else none

/-- WRITE-AREA: the length field is at most 256 and is the number of bytes carried (R46). -/
def writeAreaParam (v : Nat) : Option Request :=
  let len := param v 2 2
  match regionParam v with
  | some r => if len ≤ 256 then some (.writeArea r (leBytes len (param v 4 len))) else none
  | none => none

/-- The ring's last AU is below the AU count and its last LBA below RC (R36). -/
def ringPlaceOk (p : Placement) (first count : Nat) : Bool :=
  decide (1 ≤ count) && decide (count ≤ 256) && decide (first + count - 1 < p.auCount) &&
    decide ((first + count) * Config.auSectors - 1 < p.reported)

/-- CREATE (R36); the retention minutes are those given, before the clamp. -/
def createParam (p : Placement) (v : Nat) : Option CreateParams :=
  match regionParam v, RegionKind.ofCode (param v 2 1), CopyClass.ofCode (param v 3 1), unitOf (param v 4 1),
      flagOf (param v 5 1) with
  | some r, some kind, some cls, some unit, some share =>
    let source := param v 6 2
    let sourceOk := if share then regionOk source && decide (source ≠ r) else keyOk source
    let ringOk := decide (kind = .recording) || ringPlaceOk p (param v 8 4) (param v 12 2)
    if sourceOk && ringOk then
      some { region := r, kind := kind, cls := cls, unit := unit, share := share, source := source,
             firstAu := param v 8 4, auCount := param v 12 2, minutes := param v 14 2 }
    else none
  | _, _, _, _, _ => none

/-- RING-ATTACH: the region and the context. -/
def ringAttachParam (v : Nat) : Option (Nat × Nat) :=
  if regionOk (param v 0 2) && decide (param v 2 1 < 4) then some (param v 0 2, param v 2 1) else none

/-- A ring context number, 0 .. 3. -/
def contextParam (v : Nat) : Option Nat := if param v 0 1 < 4 then some (param v 0 1) else none

/-- SET-WINDOW: the window number and its fields (R66). -/
def windowParam (v : Nat) : Option (Nat × FixedWindow) :=
  match WindowAction.ofCode (param v 1 1), flagOf (param v 2 1) with
  | some action, some enable =>
    if param v 0 1 < 4 ∧ param v 4 4 ≤ 131071 ∧ param v 8 4 ≤ 131071 then
      some (param v 0 1, { enable := enable, base := BitVec.ofNat 17 (param v 4 4), mask := BitVec.ofNat 17 (param v 8 4),
                           action := action })
    else none
  | _, _ => none

/-- The two forms of SET-ADMISSION (R165). -/
inductive AdmissionForm where
  | entry (n : Nat) (e : AdmissionEntry)
  | default (action : AdmissionAction)
  deriving DecidableEq, Repr

/-- SET-ADMISSION. -/
def admissionParam (v : Nat) : Option AdmissionForm :=
  match param v 0 1, AdmissionAction.ofCode (param v 3 1) with
  | 0, some action =>
    match flagOf (param v 2 1) with
    | some enable =>
      if param v 1 1 < 16 then
        some (.entry (param v 1 1)
          { enable := enable, codeValue := BitVec.ofNat 8 (param v 4 1), codeMask := BitVec.ofNat 8 (param v 5 1),
            featureValue := BitVec.ofNat 16 (param v 6 2), featureMask := BitVec.ofNat 16 (param v 8 2), action := action })
      else none
    | none => none
  | 1, some action => some (.default action)
  | _, _ => none

/-- SET-EVENTS (R203). -/
def eventsParam (v : Nat) : Option (BitVec 12 × LineMode) :=
  match LineMode.ofCode (param v 2 1) with
  | some mode => if param v 0 2 ≤ 4095 then some (BitVec.ofNat 12 (param v 0 2), mode) else none
  | none => none

/-- The scopes of FLUSH-CACHE (R74). -/
inductive FlushScope where
  | all
  | region (r : Nat)
  | aus (first count : Nat)
  deriving DecidableEq, Repr

/-- FLUSH-CACHE. -/
def flushScopeParam (p : Placement) (v : Nat) : Option FlushScope :=
  match param v 0 1 with
  | 0 => some .all
  | 1 => if regionOk (param v 2 2) then some (.region (param v 2 2)) else none
  | 2 => if auRangeOk p 131072 (param v 4 4) (param v 8 4) then some (.aus (param v 4 4) (param v 8 4)) else none
  | _ => none

end Sys2Proof.Machine
end

