-- ==== Sys2Proof/Machine/Ops.lean ====
section
/-! DEFINITION. The shared operations of the blocks: handing a status or an exchange to the RLP, taking a catalogue
access or a lock, ending a management request, handing a request to the DLP. -/

namespace Sys2Proof.Machine

/-! ### Recorder Link Port -/

/-- Hands an exchange to the tail of the link list (R168). -/
def handExchange (x : Exchange) (c : Core) : Core := c.onRlp fun r => { r with linkList := r.linkList ++ [x] }

/-- Changes the command table entry of a tag. -/
def updateCmd (tag : CmdTag) (f : CmdEntry → CmdEntry) (c : Core) : Core :=
  c.onRlp fun r => { r with table := r.table.map fun e => if e.tag = tag then f e else e }

/-- Whether an entry holds this tag. -/
def hasCmd (tag : CmdTag) (c : Core) : Bool := c.rlp.table.any fun e => decide (e.tag = tag)

/-- The entry becomes ROUTED with a holder (R159). -/
def routeTo (h : Holder) (tag : CmdTag) (c : Core) : Core :=
  updateCmd tag (fun e => { e with holder := h, state := .routed }) c

/-- A holder hands the RLP a command's status: the entry becomes STATUS-HELD and a completion joins the link list
(R169). -/
def giveStatus (tag : CmdTag) (st : LinkStatus) (c : Core) : Core :=
  handExchange (.completion tag st) (updateCmd tag (fun e => { e with state := .statusHeld, status := some st }) c)

/-- A refusal whose hand-off also writes the last-refusal record (R170). -/
def giveRefusal (tag : CmdTag) (st : LinkStatus) (lba : Nat) (c : Core) : Core :=
  giveStatus tag st (recordRefusal tag st lba c)

/-! ### Catalogue Port -/

/-- The CTP takes an access: it joins the tail of the catalogue access queue (R9). -/
def takeAccess (x : CatSector) (dir : AccessDir) (owner : AccessOwner) (c : Core) : Core :=
  c.onCtp fun p =>
    { p with queue := p.queue ++ [{ seq := p.seq, sector := x, dir := dir, owner := owner }], seq := p.seq + 1 }

def takeRead (x : CatSector) (owner : AccessOwner) (c : Core) : Core := takeAccess x .read owner c

/-- A catalogue write: the whole new content, tagged (R11). -/
def takeWrite (x : CatSector) (content : CatContent) (n : Notice) (owner : AccessOwner) (c : Core) : Core :=
  takeAccess x (.write (writtenSector c.kst.keys c.ctp x content) n) owner c

/-- The lock on a sector, if it is listed. -/
def findLock (x : CatSector) (c : Core) : Option Lock := c.ctp.locks.find? fun l => decide (l.sector = x)

/-- A lock request can enter: its sector is not listed and the list holds fewer than 2 entries (R14). -/
def canEnter (x : CatSector) (c : Core) : Bool := (findLock x c).isNone && decide (c.ctp.locks.length < 2)

/-- A new lock request enters at once: it can, and takes the place of no request that waits and can enter too (R14). -/
def lockRoom (x : CatSector) (c : Core) : Bool :=
  canEnter x c && c.ctp.lockWait.all (fun w => decide (w.sector ≠ x)) &&
    decide (c.ctp.locks.length + c.ctp.lockWait.countP (fun w => canEnter w.sector c) < 2)

/-- The lock enters the list. -/
def enterLock (x : CatSector) (h : LockHolder) (c : Core) : Core :=
  c.onCtp fun p => { p with locks := p.locks ++ [{ sector := x, holder := h, since := p.seq }] }

/-- A lock request that cannot enter waits, in order (R14). -/
def waitLock (x : CatSector) (h : LockHolder) (c : Core) : Core :=
  c.onCtp fun p => { p with lockWait := p.lockWait ++ [{ sector := x, holder := h }] }

/-- The lock on a sector leaves the list. -/
def dropLock (x : CatSector) (c : Core) : Core :=
  c.onCtp fun p => { p with locks := p.locks.filter fun l => decide (l.sector ≠ x) }

/-- The accesses the DLP holds for the CTP in its table. -/
def tableAccesses (d : Dlp) : List Access :=
  d.table.filterMap fun q => match q.body with | .catalogue a => some a | _ => none

/-- Every catalogue access outstanding: in the queue, in the CTP line, in the drive request table. -/
def outstandingAccesses (c : Core) : List Access := c.ctp.queue ++ c.dlp.ctpLine ++ tableAccesses c.dlp

/-- Removes the accesses not yet issued to the drive that satisfy a test. -/
def withdrawAccesses (p : Access → Bool) (c : Core) : Core :=
  (c.onCtp fun t => { t with queue := t.queue.filter fun a => !p a }).onDlp
    fun d => { d with ctpLine := d.ctpLine.filter fun a => !p a }

/-- Changes the accesses already issued to the drive. -/
def mapIssued (f : Access → Access) (c : Core) : Core :=
  c.onDlp fun d => { d with table := d.table.map fun q =>
    match q.body with
    | .catalogue a => { q with body := .catalogue (f a) }
    | _ => q }

/-! ### Management Window -/

/-- Sets the status of the response record. -/
def setResponse (st : RespStatus) (c : Core) : Core :=
  c.onMgw fun m => { m with response := { m.response with status := st } }

/-- A long request leaves IN-PROGRESS with DONE or REFUSED, and REQUEST-DONE is raised (R191). -/
def endRequest (g : Settings) (st : RespStatus) (c : Core) : Core :=
  raiseFlag g .requestDone (setResponse st (c.onMgw fun m => { m with job := none }))

/-- Replaces the long request in progress. -/
def setJob (j : Job) (c : Core) : Core := c.onMgw fun m => { m with job := some j }

/-- A long request at the start of its work. -/
def Job.start (req : Request) (stage : Stage) : Job :=
  { req := req, stage := stage, index := 0, descA := none, descB := none, entries := [], names := [], recount := 0,
    forwardFound := false, changed := 0, keyCount := 0, target := none, wrapped := 0, identity := 0, outstanding := 0,
    failed := false, drain := [], ctx := 0 }

/-! ### Drive Link Port -/

/-- The TXE's tag request joins the tail of the TXE line (R138). -/
def joinTxeLine (q : TxReq) (c : Core) : Core := c.onDlp fun d => { d with txeLine := d.txeLine ++ [q] }

/-- The request of the drive request table with a drive tag. -/
def findReq (tag : Nat) (c : Core) : Option DriveReq := c.dlp.table.find? fun q => decide (q.tag = tag)

/-- A request leaves the table, and its tag is free (R176). -/
def dropReq (tag : Nat) (c : Core) : Core :=
  c.onDlp fun d => { d with table := d.table.filter fun q => decide (q.tag ≠ tag) }

/-- Whether a request has the form PLAIN (Table 8-3). -/
def DriveReq.isPlain (q : DriveReq) : Bool := match q.body with | .plain _ => true | _ => false

/-- Whether a request is the CTP's. -/
def DriveReq.isCatalogue (q : DriveReq) : Bool := match q.body with | .catalogue _ => true | _ => false

/-- The deadline of a request issued now (R181). -/
def newDeadline (g : Settings) : Nat := g.timer + g.timeout * Config.cyclesPerSecond

/-- The lowest-numbered free drive tag (R177). -/
def freeTag (d : Dlp) : Option Nat := (List.range 16).find? fun t => d.table.all fun q => decide (q.tag ≠ t)

/-- The number of table entries the CTP holds. -/
def ctpHeld (d : Dlp) : Nat := (d.table.filter DriveReq.isCatalogue).length

end Sys2Proof.Machine
end

