-- ==== Sys2Proof/Machine/Keys.lean ====
section
/-! DEFINITION. The Key Store (chapter 4): the slots, the reuse list, clearing, the entropy source. -/

namespace Sys2Proof.Machine

/-! ### Slots (R90) -/

/-- Slot `i`. -/
def Kst.slot (k : Kst) (i : Nat) : Slot := k.slots.getD i Slot.emptySlot

/-- Changes slot `i`. -/
def Kst.onSlot (k : Kst) (i : Nat) (f : Slot → Slot) : Kst := { k with slots := k.slots.modify i f }

/-- Takes a slot off the reuse list. -/
def Kst.unlist (k : Kst) (i : Nat) : Kst := { k with reuse := k.reuse.filter fun j => decide (j ≠ i) }

/-- The slot that holds a record in LOADING or READY (R90). -/
def Kst.holding (k : Kst) (record : Nat) : Option Nat :=
  (List.range k.slots.length).find? fun i =>
    decide ((k.slot i).record = some record) && (decide ((k.slot i).state = .loading) || decide ((k.slot i).state = .ready))

/-- A grant: the use count rises by one, and the slot leaves the reuse list (R91). -/
def Kst.grant (k : Kst) (i : Nat) : Kst := (k.onSlot i fun s => { s with use := s.use + 1 }).unlist i

/-- A use count falls by one; at 0 a READY slot enters the reuse list at its tail and a CLEARING slot becomes EMPTY
(R98). -/
def Kst.fall (k : Kst) (i : Nat) : Kst :=
  let s := k.slot i
  if s.use = 0 then k
  else if s.use = 1 then
    match s.state with
    | .clearing => k.onSlot i fun _ => Slot.emptySlot
    | .ready => { k.onSlot i (fun s => { s with use := 0 }) with reuse := k.reuse ++ [i] }
    | _ => k.onSlot i fun s => { s with use := 0 }
  else k.onSlot i fun s => { s with use := s.use - 1 }

/-- The slot a miss takes: the lowest-numbered EMPTY slot, else the head of the reuse list (R92). -/
def Kst.choose (k : Kst) : Option Nat :=
  match (List.range k.slots.length).find? fun i => decide ((k.slot i).state = .empty) with
  | some i => some i
  | none => k.reuse.head?

/-- A slot begins to load a record; the record and key it held are discarded (R92). -/
def Kst.startLoad (k : Kst) (i record : Nat) : Kst :=
  (k.onSlot i fun _ => { Slot.emptySlot with state := .loading, record := some record }).unlist i

/-- A load ends READY: the slot holds the unwrapped key and the record's unit size, and enters the reuse list, which a
grant takes it off again (R92, R93). Where its request is refused for the unit size, it thus stands before the slots whose
counts the refusal lowers to 0, an order the spec leaves open (DESIGN CHOICE, assumption log 38). -/
def Kst.loaded (k : Kst) (i record : Nat) (r : KeyRec) : Kst :=
  let key := ((Config.keyWrap ((k.keys.map Keys.wrapping).getD 0)).wrap record).symm r.wrapped
  let k := k.onSlot i fun s =>
    { s with state := .ready, key := some key, unit := r.unit, use := 0, parked := none, reread := false }
  { k with reuse := k.reuse ++ [i] }

/-- A slot becomes EMPTY. -/
def Kst.empty (k : Kst) (i : Nat) : Kst := (k.onSlot i fun _ => Slot.emptySlot).unlist i

/-- Clearing a slot (R96); of a LOADING slot the load is cancelled (see `cancelLoad`). -/
def Kst.clear (k : Kst) (i : Nat) : Kst :=
  let s := k.slot i
  match s.state with
  | .ready => if s.use = 0 then k.empty i else k.onSlot i fun s => { s with state := .clearing, record := none }
  | .loading => k.empty i
  | _ => k

/-- Clears every slot and empties the reuse list, as FORMAT and RESTART do when every use count is 0 (R21, R97). -/
def Kst.clearEvery (k : Kst) : Kst := { k with slots := k.slots.map fun _ => Slot.emptySlot, reuse := [], clearAll := false }

/-- Whether a request in WAITING-SLOT can be answered again: a slot is EMPTY or on the reuse list (R92). -/
def Kst.hasRoom (k : Kst) : Bool := k.choose.isSome

/-- Whether every use count is 0. -/
def Kst.idle (k : Kst) : Bool := k.slots.all fun s => decide (s.use = 0)

/-- The content key a segment's slot holds (R105). -/
def Kst.keyOf (k : Kst) (slot : Option Nat) : BitVec 256 :=
  match slot with
  | some i => (k.slot i).key.getD 0
  | none => 0

/-- Cancelling a load: its read leaves the queue and the line, or completes to be discarded (R96). -/
def cancelLoad (i : Nat) (c : Core) : Core :=
  mapIssued (fun a => if a.owner = .keyLoad i then { a with owner := .discarded } else a)
    (withdrawAccesses (fun a => decide (a.owner = .keyLoad i)) c)

/-! ### The entropy source (R89) -/

/-- Draws a content key: not equal to the last one. -/
def Kst.drawKey (k : Kst) : BitVec 256 × Kst :=
  let v := match k.lastKey with
    | none => Config.entropyKey k.draws
    | some last => last + 1 + BitVec.ofNat 256 (Config.entropyKeyStep k.draws).val
  (v, { k with lastKey := some v, draws := k.draws + 1 })

/-- Draws a catalogue identity: not equal to the last one. -/
def Kst.drawIdentity (k : Kst) : BitVec 64 × Kst :=
  let v := match k.lastIdentity with
    | none => Config.entropyIdentity k.draws
    | some last => last + 1 + BitVec.ofNat 64 (Config.entropyIdentityStep k.draws).val
  (v, { k with lastIdentity := some v, draws := k.draws + 1 })

/-- Wraps a content key for record `record` (R88). -/
def Kst.wrap (k : Kst) (record : Nat) (key : BitVec 256) : BitVec 256 :=
  (Config.keyWrap ((k.keys.map Keys.wrapping).getD 0)).wrap record key

/-! ### The cipher path (R99 to R102) -/

/-- Enciphers (or deciphers) data unit `n`, of `u` sectors. -/
def cipherUnit (decipher : Bool) (key : BitVec 256) (u n : Nat) (ss : List Sector) : List Sector :=
  let x : BitVec (4096 * u) := BitVec.ofNat (4096 * u) (joined ss)
  let y := if decipher then (Config.cipher (4096 * u) key n).symm x else Config.cipher (4096 * u) key n x
  (List.range u).map (sectorOf y.toNat)

/-- Enciphers (or deciphers) a run of whole data units that starts at `lba`; the tweak of a unit is its unit number
(R100). -/
def cipherRun (decipher : Bool) (key : BitVec 256) (u lba : Nat) (ss : List Sector) : List Sector :=
  (List.range (ss.length / u)).flatMap fun j => cipherUnit decipher key u (lba / u + j) ((ss.drop (u * j)).take u)

end Sys2Proof.Machine
end

