-- ==== Sys2Proof/Machine/Rings.lean ====
section
/-! DEFINITION. The Ring Unit (chapter 5): the contexts, the chunk records and the read, write and discard rules, and
what RING-INFO and RING-CHUNKS report. -/

namespace Sys2Proof.Machine

/-- Context `x`, absent when FREE. -/
def ringCtx (x : Nat) (c : Core) : Option RingCtx := c.rings.getD x none

/-- The context that answers for a region: the one ATTACHED with it (R110). -/
def attachedCtx (r : Nat) (c : Core) : Option Nat :=
  (List.range 4).find? fun x => match ringCtx x c with
    | some k => decide (k.region = r) && !k.detaching
    | none => false

/-- Whether a context ATTACHED or DETACHING holds a region (R108). -/
def holdsRegion (r : Nat) (c : Core) : Bool :=
  (List.range 4).any fun x => match ringCtx x c with
    | some k => decide (k.region = r)
    | none => false

/-- Context `x` becomes ATTACHED from a descriptor (R112). -/
def attachRing (x r : Nat) (d : Desc) (p : RingPart) (c : Core) : Core :=
  c.onRings fun rs => rs.set x (some
    { detaching := false, region := r, first := p.firstAu * Config.auSectors, chunkCount := 8 * p.auCount,
      never := decide (d.cls = .never), limit := p.minutes * 60, chunks := List.replicate (8 * p.auCount) .empty })

/-- Context `x` becomes DETACHING (R113). -/
def beginDetach (x : Nat) (c : Core) : Core :=
  c.onRings fun rs => rs.modify x (Option.map fun k => { k with detaching := true })

/-- Context `x` becomes FREE, its records cleared (R108). -/
def freeRing (x : Nat) (c : Core) : Core := c.onRings fun rs => rs.set x none

/-- The limit of the context that holds a region, if one does, becomes `minutes` × 60 (R126), also at a failed write that
finds it lower already, where the rule says "lowers" and the value is raised (DESIGN CHOICE, assumption log 40). -/
def lowerLimit (r minutes : Nat) (c : Core) : Core :=
  c.onRings fun rs => rs.map (Option.map fun k => if k.region = r then { k with limit := minutes * 60 } else k)

/-! ### Where a sector lies (R116) -/

/-- The chunks a run of sectors touches: absolute chunk number and covered offsets `[a, b)`. -/
def covers (first count : Nat) : List (Nat × Nat × Nat) :=
  let last := first + count - 1
  (List.range (last / 8192 - first / 8192 + 1)).map fun i =>
    let k := first / 8192 + i
    (k, if k = first / 8192 then first % 8192 else 0, if k = last / 8192 then last % 8192 + 1 else 8192)

/-- The record of an absolute chunk number in a context; a chunk outside the ring reads as EMPTY. -/
def RingCtx.chunkAt (k : RingCtx) (abs : Nat) : Chunk :=
  if abs < k.first / 8192 then .empty else k.chunks.getD (abs - k.first / 8192) .empty

/-- Changes the record of an absolute chunk number; a chunk outside the ring has none. -/
def RingCtx.onChunk (k : RingCtx) (abs : Nat) (f : Chunk → Chunk) : RingCtx :=
  if abs < k.first / 8192 then k else { k with chunks := k.chunks.modify (abs - k.first / 8192) f }

/-- Whether a chunk is expired at `t` under a limit (R109). -/
def chunkExpired (never : Bool) (limit t : Nat) : Chunk → Bool
  | .empty => false
  | .stamped s _ => never && decide (limit ≤ t - s)

/-! ### Reading (R117) -/

/-- The DATA sectors of a chunk over the covered offsets `[a, b)`; the rest is ZERO (Table 5-3). -/
def readable (never : Bool) (limit t a b : Nat) : Chunk → Nat
  | .empty => 0
  | .stamped s f => if chunkExpired never limit t (.stamped s f) then 0 else min b f - a

/-- Joins a run to the list before it when it is of the same kind; runs of no sectors vanish. -/
def joinRun (ps : List Part) (p : Part) : List Part :=
  if p.count = 0 then ps
  else match ps.getLast? with
    | some q => if q.data = p.data then ps.dropLast ++ [{ q with count := q.count + p.count }] else ps ++ [p]
    | none => [p]

/-- The part list of a ring READ segment (R117). -/
def partList (k : RingCtx) (t first count : Nat) : List Part :=
  (covers first count).foldl (fun ps (abs, a, b) =>
    let n := readable k.never k.limit t a b (k.chunkAt abs)
    joinRun (joinRun ps { first := abs * 8192 + a, count := n, data := true })
      { first := abs * 8192 + a + n, count := b - a - n, data := false }) []

/-- Whether a ring READ segment takes a ZERO sector from an expired chunk (R118). -/
def touchesExpired (k : RingCtx) (t first count : Nat) : Bool :=
  (covers first count).any fun (abs, _, _) => chunkExpired k.never k.limit t (k.chunkAt abs)

/-! ### Writing (R121) -/

/-- Table 5-4: the record after a write that covers `[a, b)`, with the time and limit the segment carries. -/
def chunkAfterWrite (never : Bool) (limit t a b : Nat) : Chunk → Chunk
  | .empty => .stamped t (if a = 0 then b else 0)
  | .stamped s f =>
    if chunkExpired never limit t (.stamped s f) then .stamped t (if a = 0 then b else 0)
    else if a = 0 then .stamped t b
    else if a ≤ f then .stamped s (max f b)
    else .stamped s f

/-- A completed ring WRITE segment changes the chunks it touched, in ascending order. -/
def RingCtx.afterWrite (k : RingCtx) (limit t first count : Nat) : RingCtx :=
  (covers first count).foldl (fun k (abs, a, b) => k.onChunk abs (chunkAfterWrite k.never limit t a b)) k

/-! ### Discarding (R124) -/

/-- Table 5-5. -/
def chunkAfterDiscard (a b : Nat) : Chunk → Chunk
  | .empty => .empty
  | .stamped s f => if b < 8192 then .stamped s f else if a = 0 then .empty else .stamped s (min f a)

/-- A ring DISCARD segment changes the chunks it covers. -/
def RingCtx.afterDiscard (k : RingCtx) (first count : Nat) : RingCtx :=
  (covers first count).foldl (fun k (abs, a, b) => k.onChunk abs (chunkAfterDiscard a b)) k

/-- Changes context `x` where it is not FREE. -/
def onCtx (x : Nat) (f : RingCtx → RingCtx) (c : Core) : Core := c.onRings fun rs => rs.modify x (Option.map f)

/-! ### Observing (R128, R129) -/

/-- Whether a chunk is live at `t` (R109). -/
def chunkLive (never : Bool) (limit t : Nat) : Chunk → Bool
  | .empty => false
  | .stamped s f => !chunkExpired never limit t (.stamped s f)

/-- The smallest stamp among the live chunks, if any. -/
def oldestLive (k : RingCtx) (t : Nat) : Option Nat :=
  k.chunks.foldl (fun m ch => match ch with
    | .empty => m
    | .stamped s _ => if chunkLive k.never k.limit t ch then some (match m with | none => s | some x => min x s) else m) none

/-- The RING-INFO results (Table 5-6, Table 11-8). The bytes Table 11-8 marks ignored are 0 (DESIGN CHOICE, assumption
log 36). -/
def ringInfoResults (t : Nat) (k : Option RingCtx) : List Byte :=
  match k with
  | none => leBytes 16 0 ++ leBytes 4 t ++ leBytes 12 0
  | some k =>
    let live := k.chunks.countP (chunkLive k.never k.limit t)
    let expired := k.chunks.countP (chunkExpired k.never k.limit t)
    let empty := k.chunks.countP (fun ch => decide (ch = .empty))
    leBytes 1 (if k.detaching then 2 else 1) ++ leBytes 1 (flagCode k.never) ++ leBytes 2 k.region ++
      leBytes 4 (k.first / Config.auSectors) ++ leBytes 2 k.chunkCount ++ leBytes 2 0 ++ leBytes 4 k.limit ++ leBytes 4 t ++
      leBytes 2 live ++ leBytes 2 expired ++ leBytes 2 empty ++ leBytes 1 (flagCode (oldestLive k t).isSome) ++ leBytes 1 0 ++
      leBytes 4 ((oldestLive k t).getD 0)

/-- One chunk's result in RING-CHUNKS (Table 11-8); the ignored bytes are 0 (DESIGN CHOICE, assumption log 36). -/
def chunkResult (k : RingCtx) (t n : Nat) : List Byte :=
  let ch := k.chunks.getD n .empty
  let state := if chunkLive k.never k.limit t ch then 1 else if chunkExpired k.never k.limit t ch then 2 else 0
  let (stamp, fill) := match ch with | .empty => (0, 0) | .stamped s f => (s, f)
  leBytes 2 n ++ leBytes 1 state ++ leBytes 1 0 ++ leBytes 2 fill ++ leBytes 2 0 ++ leBytes 4 stamp

/-- The RING-CHUNKS results (R129); the ignored bytes are 0 (DESIGN CHOICE, assumption log 36). -/
def ringChunksResults (k : RingCtx) (t first count : Nat) : List Byte :=
  leBytes 4 t ++ leBytes 2 count ++ leBytes 2 0 ++ (List.range count).flatMap fun i => chunkResult k t (first + i)

end Sys2Proof.Machine
end

