-- ==== Sys2Proof/Machine/Transfers.lean ====
section
/-! DEFINITION. The Transfer Engine (chapter 6): the range interlock, runs and pieces, the data each item moves, ending
a segment and a command, failures. -/

namespace Sys2Proof.Machine

/-! ### The transfer list -/

def findTx (id : Nat) (c : Core) : Option TxEntry := c.txe.list.find? fun e => decide (e.id = id)

def updateTx (id : Nat) (f : TxEntry → TxEntry) (c : Core) : Core :=
  c.onTxe fun t => { t with list := t.list.map fun e => if e.id = id then f e else e }

/-- The entry leaves the list and every blocker set that holds it (R132). -/
def dropTx (id : Nat) (c : Core) : Core :=
  c.onTxe fun t =>
    { t with list := (t.list.filter fun e => decide (e.id ≠ id)).map fun e =>
        { e with blockers := e.blockers.filter fun b => decide (b ≠ id) } }

/-! ### The range interlock (R131, R132) -/

def PlanSeg.last (s : PlanSeg) : Nat := s.first + s.count - 1

/-- The run a segment presents to the interlock (R131). -/
def comparedRange (s : PlanSeg) : Nat × Nat :=
  if s.ctx.isSome then (s.first / 8192 * 8192, s.last / 8192 * 8192 + 8191)
  else if s.disp = .cipher ∧ s.unit = 8 then (s.first / 8 * 8, s.last / 8 * 8 + 7)
  else (s.first, s.last)

/-- Two runs share at least one LBA. -/
def overlap (x y : Nat × Nat) : Bool := decide (x.1 ≤ y.2) && decide (y.1 ≤ x.2)

/-- Two commands conflict (R132). -/
def conflicts (k₁ k₂ : CmdKind) (r₁ r₂ : List (Nat × Nat)) : Bool :=
  (decide (k₁ ≠ .read) || decide (k₂ ≠ .read)) && r₁.any fun x => r₂.any (overlap x)

/-- The TXE takes a command from the RSV: it enters the list in WAITING-RANGE with its blocker set (R130, R132). -/
def enterTransfer (x : Xfer) (plan : List PlanSeg) (c : Core) : Core :=
  let compared := plan.map comparedRange
  let blockers := (c.txe.list.filter fun e => conflicts x.kind e.kind compared e.compared).map TxEntry.id
  routeTo .txe x.tag (c.onTxe fun t =>
    { t with list := t.list ++
        [{ id := x.id, tag := x.tag, kind := x.kind, start := x.start, count := x.count, ranges := x.ranges, plan := plan,
           compared := compared, blockers := blockers, state := .waitingRange, pos := 0, items := [], out := [],
           onLink := false, asked := false, holds := [], buffer := [] }] })

/-! ### Runs, pieces and merge reads (R135, R136, R141) -/

/-- A run cut into pieces at every multiple of 128; each keeps the run of DATA sectors it carries. -/
def cutPieces (lo hi dataFirst dataLast : Nat) : List Item :=
  (List.range (hi / 128 - lo / 128 + 1)).map fun i =>
    let b := lo / 128 + i
    let s := max lo (128 * b)
    .piece s (min hi (128 * b + 127) - s + 1) dataFirst dataLast

/-- The pieces of a run of sectors, widened to whole data units for unit size 8 (R102, R135). Where RC is no multiple of 8,
a unit at the top of the space is widened past RC, over catalogue sectors (DESIGN CHOICE against R2's "reach no catalogue
sector"; assumption log 30). -/
def runPieces (unit first last : Nat) : List Item :=
  if unit = 8 then cutPieces (first / 8 * 8) (last / 8 * 8 + 7) first last else cutPieces first last first last

/-- The merge reads of a u = 8 CIPHER WRITE segment: the partial head, then the partial tail unless it is the same unit
(R141). -/
def mergeItems (first last : Nat) : List Item :=
  (if first % 8 ≠ 0 then [.mergeRead (first / 8 * 8)] else []) ++
    (if last % 8 ≠ 7 ∧ ¬(first % 8 ≠ 0 ∧ first / 8 = last / 8) then [.mergeRead (last / 8 * 8)] else [])

/-- The items of a ring READ segment from its part list. The sectors of a ZERO part that lie in a data unit of the DATA
part before it come with that part's last piece (R139), so its zero run begins above `done`. -/
def ringReadItems (unit : Nat) : Nat → List Part → List Item
  | _, [] => []
  | done, p :: ps =>
    let last := p.first + p.count - 1
    if p.data then
      runPieces unit p.first last ++ ringReadItems unit (if unit = 8 then last / 8 * 8 + 8 else last + 1) ps
    else
      let from' := max p.first done
      (if from' ≤ last then [.zeros (last + 1 - from')] else []) ++ ringReadItems unit done ps

/-- The items of a segment, in order (R137). -/
def segItems (kind : CmdKind) (s : PlanSeg) : List Item :=
  match kind, s.disp with
  | .read, .zero => [.zeros s.count]
  | .read, .cipher => if s.ctx.isSome then ringReadItems s.unit 0 s.parts else runPieces s.unit s.first s.last
  | .read, .clear => runPieces 1 s.first s.last
  | .write, .cipher => (if s.unit = 8 then mergeItems s.first s.last else []) ++ runPieces s.unit s.first s.last
  | .write, .clear => runPieces 1 s.first s.last
  | _, _ => []

/-- An item that needs a drive request. -/
def Item.isDrive : Item → Bool
  | .zeros _ => false
  | _ => true

/-! ### Ending a segment and a command (R143, R144) -/

/-- The segments that hold a slot and are not yet reported ended are reported ended to the KST, in plan order, which the spec
leaves open (R98; DESIGN CHOICE, assumption log 38). -/
def releaseSlots (plan : List PlanSeg) (c : Core) : Core :=
  plan.foldl (fun c s => match s.slot with
    | some i => if s.reported then c else c.onKst fun k => k.fall i
    | none => c) c

/-- The entry ends without a status: its segments are reported ended and it leaves the list (R153, R154). -/
def leaveTransfer (e : TxEntry) (c : Core) : Core := dropTx e.id (releaseSlots e.plan c)

/-- The command becomes COMPLETE (R144). -/
def completeTransfer (st : LinkStatus) (e : TxEntry) (c : Core) : Core := giveStatus e.tag st (leaveTransfer e c)

/-- A ring WRITE segment that completes changes its chunk records, with the time and limit it carries (R121). -/
def applyRingWrite (kind : CmdKind) (s : PlanSeg) (c : Core) : Core :=
  match kind, s.ctx, s.ringTime, s.limit with
  | .write, some x, some t, some l => onCtx x (fun k => k.afterWrite l t s.first s.count) c
  | _, _, _, _ => c

/-- The segment in hand is complete: it is reported, once (R143). -/
def completeSegment (id : Nat) (c : Core) : Core :=
  match findTx id c with
  | none => c
  | some e =>
    match e.plan[e.pos]? with
    | none => c
    | some s =>
      if s.reported then c
      else
        let c := releaseSlots [s] (applyRingWrite e.kind s c)
        updateTx id (fun e => { e with plan := e.plan.modify e.pos fun s => { s with reported := true } }) c

/-! ### Movement (R137 to R142) -/

/-- Asks the DLP for a tag; in LOST the request fails at once (R138, R151). -/
def askDrive (q : TxReq) (c : Core) : Core :=
  if c.dlp.link = .lost then
    match findTx q.id c with
    | some e => completeTransfer .driveTimeout e c
    | none => c
  else joinTxeLine q (updateTx q.id (fun e => { e with asked := true }) c)

/-- The recorder's sectors of a write piece: its first and how many (R140). -/
def pieceDraw (s : PlanSeg) (lba count : Nat) : Nat × Nat :=
  let lo := max lba s.first
  (lo, min (lba + count - 1) s.last + 1 - lo)

/-- One move of an entry in movement: hands over what is ready, takes the next item, or ends the segment. A READ asks for its
next piece, and reaches its next segment, once the sectors before have been handed over, and each run of zero-filled sectors
is one delivery of its own, however long (R137, R139, R143, R168; DESIGN CHOICE, assumption log 32). -/
def stepTransfer (id : Nat) (c : Core) : Core :=
  match findTx id c with
  | none => c
  | some e =>
    if e.state ≠ .moving ∨ e.asked = true then c
    else
      match e.out with
      | d :: rest =>
        if e.onLink then c
        else handExchange (.delivery e.tag (.transfer id) d) (updateTx id (fun e => { e with out := rest, onLink := true }) c)
      | [] =>
        match e.plan[e.pos]?, e.items with
        | none, _ => completeTransfer .good e c
        | some _, .zeros n :: rest =>
          updateTx id (fun e => { e with out := [List.replicate n zeroSector], items := rest }) c
        | some _, .mergeRead lba :: _ => askDrive { id := id, kind := .read, lba := lba, count := 8, data := [], ranges := [] } c
        | some s, .piece lba n _ _ :: _ =>
          if e.kind = .write then
            if e.onLink then c
            else handExchange (.draw e.tag (.writePiece id) (pieceDraw s lba n).2)
              (updateTx id (fun e => { e with onLink := true }) c)
          else askDrive { id := id, kind := .read, lba := lba, count := n, data := [], ranges := [] } c
        | some _, [] =>
          match e.plan[e.pos + 1]? with
          | some s => updateTx id (fun e => { e with pos := e.pos + 1, items := segItems e.kind s }) c
          | none => completeTransfer .good e c

/-- Reports the segment in hand when no drive request of it is left (R143). -/
def reportIfEnded (id : Nat) (c : Core) : Core :=
  match findTx id c with
  | none => c
  | some e => if e.state = .moving ∧ e.asked = false ∧ e.items.all (fun i => !i.isDrive) then completeSegment id c else c

/-- Carries an entry on until it waits for the link or the drive, or completes. A command has at most two segments with
data, so a few moves reach that point. -/
def progress : Nat → Nat → Core → Core
  | 0, _, c => c
  | fuel + 1, id, c => progress fuel id (stepTransfer id (reportIfEnded id c))

/-- The moves one event can set off. -/
def moveOn (id : Nat) (c : Core) : Core := progress 12 id c

/-! ### Items that end with good status -/

/-- The sectors of a READ piece that go to the recorder: those of the segment, zero-filled outside the DATA run
(R139). -/
def deliverable (s : PlanSeg) (lba dataFirst dataLast : Nat) (ss : List Sector) : List Sector :=
  (ss.zipIdx lba).filterMap fun (x, l) =>
    if s.first ≤ l ∧ l ≤ s.last then some (if dataFirst ≤ l ∧ l ≤ dataLast then x else zeroSector) else none

/-- The data of a run as the CPH hands it on (R99). -/
def decipherFor (k : Kst) (s : PlanSeg) (lba : Nat) (ss : List Sector) : List Sector :=
  if s.disp = .cipher then cipherRun true (k.keyOf s.slot) s.unit lba ss else ss

/-- The data of a write piece as it goes to the drive (R140, R142): the recorder's sectors, the merge holds' around
them, enciphered for a CIPHER segment. -/
def gatherPiece (k : Kst) (s : PlanSeg) (holds : List (Nat × List Sector)) (lba count : Nat) (drawn : List Sector) :
    List Sector :=
  let lo := (pieceDraw s lba count).1
  let plain := (List.range count).map fun i =>
    let x := lba + i
    if s.first ≤ x ∧ x ≤ s.last then drawn.getD (x - lo) zeroSector
    else match holds.find? fun h => decide (h.1 = x / 8) with
      | some h => h.2.getD (x % 8) zeroSector
      | none => zeroSector
  if s.disp = .cipher then cipherRun false (k.keyOf s.slot) s.unit lba plain else plain

/-- A READ piece completes (R139). -/
def readPieceDone (id : Nat) (data : List Sector) (c : Core) : Core :=
  match findTx id c with
  | none => c
  | some e =>
    match e.plan[e.pos]?, e.items with
    | some s, .piece lba _ df dl :: rest =>
      let clear := decipherFor c.kst s lba data
      moveOn id (updateTx id (fun e =>
        { e with asked := false, items := rest, buffer := clear, out := e.out ++ [deliverable s lba df dl clear] }) c)
    | _, _ => c

/-- A merge read completes: the deciphered unit goes into a hold (R141). -/
def mergeReadDone (id : Nat) (data : List Sector) (c : Core) : Core :=
  match findTx id c with
  | none => c
  | some e =>
    match e.plan[e.pos]?, e.items with
    | some s, .mergeRead lba :: rest =>
      moveOn id (updateTx id (fun e =>
        { e with asked := false, items := rest, holds := e.holds ++ [(lba / 8, decipherFor c.kst s lba data)] }) c)
    | _, _ => c

/-- The recorder's sectors of a write piece have been drawn: the piece is complete and asks for its tag (R140). The
holds of the units it covers are released (R142). -/
def writePieceDrawn (id : Nat) (drawn : List Sector) (c : Core) : Core :=
  match findTx id c with
  | none => c
  | some e =>
    match e.plan[e.pos]?, e.items with
    | some s, .piece lba n _ _ :: _ =>
      let data := gatherPiece c.kst s e.holds lba n drawn
      askDrive { id := id, kind := .write, lba := lba, count := n, data := data, ranges := [] }
        (updateTx id (fun e =>
          { e with
            onLink := false
            buffer := data
            holds := e.holds.filter fun h => !(decide (lba ≤ 8 * h.1) && decide (8 * h.1 < lba + n)) }) c)
    | _, _ => c

/-- A write piece completes (R140). -/
def writePieceDone (id : Nat) (c : Core) : Core :=
  match findTx id c with
  | none => c
  | some e =>
    match e.items with
    | .piece _ _ _ _ :: rest => moveOn id (updateTx id (fun e => { e with asked := false, items := rest }) c)
    | _ => c

/-- A delivery of an entry has been sent (R168): the next may be handed. -/
def deliverySent (id : Nat) (c : Core) : Core := moveOn id (updateTx id (fun e => { e with onLink := false }) c)

/-! ### Failures (R149 to R151, R154) -/

/-- The LBA of a MEDIA completion (R146, R149, R150). -/
def mediaLba (e : TxEntry) (q : TxReq) (reported : Option Nat) : Nat :=
  match q.kind with
  | .discard => (q.ranges.head?.map Prod.fst).getD 0
  | _ =>
    match e.items with
    | .mergeRead lba :: _ => max e.start lba
    | _ =>
      let x := reported.getD q.lba
      match e.plan[e.pos]? with
      | some s => if s.disp = .cipher ∧ s.unit = 8 then max e.start (x / 8 * 8) else max e.start x
      | none => max e.start x

/-- A drive request of the TXE ends without good status: an ABANDONED entry leaves, a MOVING command completes. -/
def transferFailed (q : TxReq) (st : TxEntry → LinkStatus) (c : Core) : Core :=
  match findTx q.id c with
  | none => c
  | some e => if e.state = .abandoned then leaveTransfer e c else completeTransfer (st e) e c

/-- A drive request of the TXE ends with good status. -/
def transferDone (q : TxReq) (live : Core → Core) (c : Core) : Core :=
  match findTx q.id c with
  | none => c
  | some e => if e.state = .abandoned then leaveTransfer e c else live c

/-! ### Move admission (R133, R145) -/

/-- What the RGU gives a ring segment of a READ or WRITE at move admission (R117, R120). -/
def admitSeg (g : Settings) (kind : CmdKind) (c : Core) (s : PlanSeg) : PlanSeg :=
  match s.ctx.bind fun x => ringCtx x c with
  | none => s
  | some k =>
    let s := { s with ringTime := some g.clock, limit := some k.limit }
    if kind = .read ∧ s.disp = .cipher then { s with parts := partList k g.clock s.first s.count } else s

/-- Whether a READ takes a ZERO sector from an expired chunk (R118). -/
def readsExpired (g : Settings) (plan : List PlanSeg) (c : Core) : Bool :=
  plan.any fun s => match s.ctx.bind fun x => ringCtx x c with
    | some k => decide (s.disp = .cipher) && touchesExpired k g.clock s.first s.count
    | none => false

/-- The ring effects of a DISCARD, in plan order (R124). -/
def discardEffects (plan : List PlanSeg) (c : Core) : Core :=
  plan.foldl (fun c s => match s.ctx with
    | some x => if s.disp = .clear then onCtx x (fun k => k.afterDiscard s.first s.count) c else c
    | none => c) c

/-- The range list of the drive discard (R145). -/
def discardRanges (plan : List PlanSeg) : List (Nat × Nat) :=
  (plan.filter fun s => decide (s.disp = .clear)).map fun s => (s.first, s.count)

/-- A DISCARD begins: its ring effects, then one drive discard, or GOOD when there is nothing to pass on (R145). -/
def startDiscard (e : TxEntry) (c : Core) : Core :=
  let c := discardEffects e.plan c
  let ranges := discardRanges e.plan
  match ranges with
  | [] => completeTransfer .good e c
  | r :: _ => askDrive { id := e.id, kind := .discard, lba := r.1, count := (ranges.length + 63) / 64, data := [], ranges := ranges } c

/-- Move admission of an entry whose blocker set is empty (R133). -/
def admitEntry (g : Settings) (e : TxEntry) (c : Core) : Core :=
  let plan := e.plan.map (admitSeg g e.kind c)
  let items := match plan with | s :: _ => segItems e.kind s | [] => []
  let c := raiseWhen g (decide (e.kind = .read) && readsExpired g e.plan c) .ringExpired c
  let c := updateTx e.id (fun e => { e with state := .moving, plan := plan, pos := 0, items := items }) c
  if e.kind = .discard then startDiscard { e with state := .moving, plan := plan } c else moveOn e.id c

end Sys2Proof.Machine
end

