-- ==== Sys2Proof/Machine/Cache.lean ====
section
/-! DEFINITION. The region cache (R69 to R74) and the fixed windows (R64, R65). -/

namespace Sys2Proof.Machine

/-! ### The region cache -/

/-- The set of an AU (R69). -/
def Rsv.cacheSet (r : Rsv) (au : Nat) : CacheSet := r.cache.getD (au % 16) CacheSet.cleared

/-- The valid way that holds an AU (R70). -/
def CacheSet.hit (s : CacheSet) (au : Nat) : Option CacheEntry :=
  s.ways.findSome? fun w => w.bind fun e => if e.au = au then some e else none

/-- A lookup advances the counter, from 3 back to 0 (R70). -/
def CacheSet.advance (s : CacheSet) : CacheSet := { s with counter := (s.counter + 1) % 4 }

/-- A load: skipped when the AU is already there, else into the lowest invalid way, else into the way the counter
names (R72). -/
def CacheSet.load (e : CacheEntry) (s : CacheSet) : CacheSet :=
  if (s.hit e.au).isSome then s
  else match s.ways.findIdx? Option.isNone with
    | some i => { s with ways := s.ways.set i (some e) }
    | none => { s with ways := s.ways.set s.counter (some e) }

/-- Changes the set of an AU. -/
def onCacheSet (au : Nat) (f : CacheSet → CacheSet) (c : Core) : Core :=
  c.onRsv fun r => { r with cache := r.cache.modify (au % 16) f }

/-- Makes the valid entries that satisfy a test invalid (R73). -/
def invalidate (p : CacheEntry → Bool) (c : Core) : Core :=
  c.onRsv fun r => { r with cache := r.cache.map fun s => { s with ways := s.ways.map (Option.filter fun e => !p e) } }

/-- The valid entries that satisfy a test. -/
def countEntries (p : CacheEntry → Bool) (c : Core) : Nat :=
  (c.rsv.cache.map fun s => s.ways.countP fun w => w.any p).sum

/-- An entry whose resolved region or forward region is `r`. -/
def CacheEntry.names (r : Nat) (e : CacheEntry) : Bool :=
  e.region.any fun i => decide (i.region = r) || decide (i.forward = some r)

/-- Sets flags in the valid entries resolved to region `r` (R73, R83). -/
def setCacheFlags (r : Nat) (played written : Bool) (c : Core) : Core :=
  let mark (i : RegionInfo) : RegionInfo :=
    if i.region = r then { i with played := i.played || played, written := i.written || written } else i
  c.onRsv fun v => { v with cache := v.cache.map fun s =>
    { s with ways := s.ways.map (Option.map fun e => { e with region := e.region.map mark }) } }

/-- The entries a FLUSH-CACHE scope covers (R74). -/
def FlushScope.covers (s : FlushScope) (e : CacheEntry) : Bool :=
  match s with
  | .all => true
  | .region r => e.names r
  | .aus first count => decide (first ≤ e.au) && decide (e.au < first + count)

/-! ### Fixed windows -/

/-- A window matches an AU when they agree wherever the mask is clear (R64). -/
def FixedWindow.matchesAu (w : FixedWindow) (au : Nat) : Bool :=
  w.enable && decide (BitVec.ofNat 17 au &&& ~~~w.mask = w.base &&& ~~~w.mask)

/-- The action of the lowest-numbered enabled window that matches (R64). -/
def windowFor (ws : List FixedWindow) (au : Nat) : Option WindowAction :=
  (ws.find? fun w => w.matchesAu au).map FixedWindow.action

/-- What a segment comes to: a disposition, or a refusal of its command. -/
inductive Verdict where
  | take (d : Disp)
  | refuse (r : Reason)
  deriving DecidableEq, Repr

/-- Table 3-3. -/
def windowVerdict (a : WindowAction) (k : CmdKind) : Verdict :=
  match a, k with
  | .noAccess, _ => .refuse .noAccess
  | .clearProtected, .write => .refuse .protect
  | .clearProtected, .discard => .take .zero
  | _, _ => .take .clear

/-- The unassigned policy (R68). -/
def policyVerdict (p : Policy) : Verdict :=
  match p with
  | .clear => .take .clear
  | .noAccess => .refuse .noAccess

/-- Whether a WRITE or DISCARD through this entry is protected (R80). -/
def CacheEntry.isProtected (e : CacheEntry) : Bool := e.protect || e.region.any fun i => i.sealed || i.locked

/-- The outcome of an entry for a command kind, with the ring context the RGU names (R71, Table 3-4). -/
def entryVerdict (k : CmdKind) (e : CacheEntry) (ctx : Option Nat) : Verdict :=
  match e.region with
  | none =>
    match k with
    | .write => if e.isProtected then .refuse .protect else .take .clear
    | .discard => if e.isProtected then .take .zero else .take .clear
    | _ => .take .clear
  | some i =>
    match i.kind, k with
    | .recording, .write => if e.isProtected then .refuse .protect else .take .cipher
    | .recording, .discard => .take .zero
    | .recording, _ => .take .cipher
    | .ring, .write =>
      if e.isProtected then .refuse .protect else if ctx.isSome then .take .cipher else .refuse .noRing
    | .ring, .discard => if ctx.isSome && !e.isProtected then .take .clear else .take .zero
    | .ring, _ => if ctx.isSome then .take .cipher else .take .zero

end Sys2Proof.Machine
end

