-- ==== Sys2Proof/Machine/Resolver.lean ====
section
/-! DEFINITION. The Region Resolver (chapter 3): segments, the walk, flag updates, slot requests, hand-off, refusals. -/

namespace Sys2Proof.Machine

/-- How a catalogue read ends for its requester (R10): verified content, a damaged sector, a drive error, a timeout. -/
inductive ReadEnd where
  | content (x : CatContent)
  | damaged
  | driveError
  | timeout
  deriving DecidableEq, Repr

/-! ### The resolution in progress -/

def onRes (f : Resolution → Resolution) (c : Core) : Core := c.onRsv fun r => { r with current := r.current.map f }

def onSeg (i : Nat) (f : Seg → Seg) (c : Core) : Core := onRes (fun r => { r with segs := r.segs.modify i f }) c

def setPhase (p : RsvPhase) (c : Core) : Core := onRes (fun r => { r with phase := p }) c

/-- The resolution ends. -/
def endRes (c : Core) : Core := c.onRsv fun r => { r with current := none }

/-- The use counts granted to a command are lowered (R85), in plan order, which the spec leaves open (DESIGN CHOICE,
assumption log 38). -/
def lowerGrants (segs : List Seg) (c : Core) : Core :=
  segs.foldl (fun c s => match s.slot with | some j => c.onKst fun k => k.fall j | none => c) c

/-- A lock held by the flag update of the resolution in progress is released. -/
def dropResolverLock (c : Core) : Core :=
  c.onCtp fun p => { p with locks := p.locks.filter fun l => decide (l.holder ≠ .resolver) }

/-- The event of a resolver refusal (Table 3-5). -/
def refusalEvent (g : Settings) (st : LinkStatus) (c : Core) : Core :=
  match st with
  | .refused .protect => raiseFlag g .protectRefusal c
  | .refused .noAccess | .refused .noRing => raiseFlag g .accessRefusal c
  | .refused .keyLost => raiseFlag g .keyLost c
  | _ => c

/-- A resolution refuses its command, all or nothing (R86). -/
def refuseCmd (g : Settings) (st : LinkStatus) (lba : Nat) (c : Core) : Core :=
  match c.rsv.current with
  | none => c
  | some res =>
    giveRefusal res.cmd.tag st lba (endRes (dropResolverLock (lowerGrants res.segs (refusalEvent g st c))))

/-! ### Segments (R61, R62) -/

/-- A range cut at the AU boundary it crosses. -/
def cutRange (s n : Nat) : List (Nat × Nat) :=
  let e := s + n - 1
  let a := s / 65536
  if e / 65536 = a then [(s, n)] else [(s, (a + 1) * 65536 - s), ((a + 1) * 65536, e + 1 - (a + 1) * 65536)]

/-- A segment, matched against the fixed windows as they stand (R59 step 2). -/
def newSeg (g : Settings) (r : Nat × Nat) : Seg :=
  { first := r.1, count := r.2, au := r.1 / 65536, window := windowFor g.windows (r.1 / 65536), looked := false,
    walked := false, used := [], stale := false, disp := none, entry := none, ctx := none, slot := none }

/-- The segments of a command in plan order. -/
def segmentsOf (g : Settings) (x : Xfer) : List Seg :=
  let runs := if x.kind = .discard then (x.ranges.filter fun r => decide (r.2 ≠ 0)).flatMap fun r => cutRange r.1 r.2
    else cutRange x.start x.count
  runs.map (newSeg g)

/-- The first range entry of a DISCARD that ends at or above RC (R62). -/
def badRange (rc : Nat) (x : Xfer) : Option Nat :=
  if x.kind = .discard then (x.ranges.find? fun r => decide (r.2 ≠ 0) && decide (rc ≤ r.1 + r.2 - 1)).map Prod.fst else none

/-! ### The walk (R75 to R77) -/

def memoGet (m : List (CatSector × CatContent)) (x : CatSector) : Option CatContent :=
  (m.find? fun p => decide (p.1 = x)).map Prod.snd

/-- The map entry of an AU, if its page has been read. -/
def memoEntry (m : List (CatSector × CatContent)) (au : Nat) : Option MapEntry :=
  match memoGet m (.page (au / 120)) with
  | some (.page es) => some (es.getD (au % 120) .unassigned)
  | _ => none

/-- A region descriptor, if it has been read. -/
def memoDesc (m : List (CatSector × CatContent)) (r : Nat) : Option Desc :=
  match memoGet m (.desc r) with
  | some (.desc d) => some d
  | _ => none

/-- What a cache entry holds of the resolved region's descriptor (R69). -/
def regionInfo (r : Nat) (forward : Option Nat) (d : Desc) : RegionInfo :=
  { region := r, forward := forward, kind := d.kind, sealed := decide (d.state = .sealed), cls := d.cls, unit := d.unit,
    key := d.key, locked := d.locked, played := d.played, written := d.written }

/-- An AU of a RING lies within the descriptor's ring part (R76). -/
def inRingPart (d : Desc) (au : Nat) : Bool :=
  match d.kind, d.ring with
  | .recording, _ => true
  | .ring, some p => decide (p.firstAu ≤ au) && decide (au < p.firstAu + p.auCount)
  | .ring, none => false

/-- A descriptor in state OPEN or SEALED. -/
def Desc.inUse (d : Desc) : Bool := decide (d.state = .opened) || decide (d.state = .sealed)

/-- `t` is valid as the target of the FORWARD descriptor `b` (R57, R77). -/
def Desc.validTarget (b t : Desc) : Bool := decide (t.kind = .recording) && decide (t.key = b.key) && decide (t.unit = b.unit)

/-- Where a walk stands: it needs a sector, it found an UNASSIGNED entry, it resolved to a cache entry's content, or it
ends in a refusal (raising CATALOGUE-DAMAGE or not). -/
inductive WalkStep where
  | need (x : CatSector)
  | unassigned
  | entry (e : CacheEntry)
  | refuse (r : Reason) (damage : Bool)
  deriving DecidableEq, Repr

/-- The forward hop from region `b` to `t` (R77). -/
def hopStep (m : List (CatSector × CatContent)) (au : Nat) (protect : Bool) (b t : Nat) (db : Desc) : WalkStep :=
  match memoDesc m t with
  | none => .need (.desc t)
  | some dt =>
    if dt.state = .retired then .refuse .noAccess false
    else if dt.inUse && db.validTarget dt then .entry { au := au, protect := protect, region := some (regionInfo t (some b) dt) }
    else .refuse .catalogue true

/-- The walk of an AU over the content read so far. -/
def walkStep (m : List (CatSector × CatContent)) (au : Nat) : WalkStep :=
  match memoEntry m au with
  | none => .need (.page (au / 120))
  | some .unassigned => .unassigned
  | some (.clear p) => .entry { au := au, protect := p, region := none }
  | some (.region r p) =>
    match memoDesc m r with
    | none => .need (.desc r)
    | some d =>
      match d.state, d.forward with
      | .opened, _ | .sealed, _ =>
        if inRingPart d au then .entry { au := au, protect := p, region := some (regionInfo r none d) }
        else .refuse .catalogue true
      | .forward, some t => hopStep m au p r t d
      | .retired, _ => .refuse .noAccess false
      | _, _ => .refuse .catalogue true

/-- The sectors a walk has acted on: its page, its descriptor, its forward target, as far as they have been read. -/
def walkPath (m : List (CatSector × CatContent)) (au : Nat) : List CatSector :=
  match memoEntry m au with
  | none => []
  | some (.region r _) =>
    .page (au / 120) :: match memoDesc m r with
      | none => []
      | some d => .desc r :: match d.state, d.forward with
        | .forward, some t => if (memoDesc m t).isSome then [.desc t] else []
        | _, _ => []
  | some _ => [.page (au / 120)]

/-! ### Stale marks (R73) -/

/-- A notice for a sector reaches the resolution in progress: the segments that acted on the sector are stale, and the
sector is read again where it is still needed. -/
def markStale (x : CatSector) (c : Core) : Core :=
  onRes (fun r =>
    let hit (n : Nat × Seg) : Bool := n.2.used.contains x || match r.phase with
      | .walking i => decide (n.1 = i) && (walkPath r.memo n.2.au).contains x
      | _ => false
    { r with
      segs := r.segs.zipIdx.map fun (s, i) => if hit (i, s) then { s with stale := true } else s
      memo := r.memo.filter fun p => decide (p.1 ≠ x) }) c

/-- Marks stale the segments that satisfy a test. -/
def markStaleWhere (p : Seg → Bool) (c : Core) : Core :=
  onRes (fun r => { r with segs := r.segs.map fun s => if p s then { s with stale := true } else s }) c

/-- Whether a walk under way has met a region: its map entry or its forward names it. -/
def walkMeets (m : List (CatSector × CatContent)) (au r : Nat) : Bool :=
  match memoEntry m au with
  | some (.region b _) => decide (b = r) || (memoDesc m b).any fun d => decide (d.forward = some r)
  | _ => false

/-- The segments a FLUSH-CACHE scope covers are marked stale (R74). -/
def markFlushed (scope : FlushScope) (c : Core) : Core :=
  match scope with
  | .all => markStaleWhere (fun _ => true) c
  | .aus first count => markStaleWhere (fun s => decide (first ≤ s.au) && decide (s.au < first + count)) c
  | .region r =>
    let memo := (c.rsv.current.map Resolution.memo).getD []
    markStaleWhere (fun s => s.entry.any (CacheEntry.names r) || (s.looked && s.disp.isNone && walkMeets memo s.au r)) c

/-! ### Hand-off (R72, R85) -/

/-- A segment as the plan carries it (Table 3-2). -/
def planOf (s : Seg) : PlanSeg :=
  let info := s.entry.bind CacheEntry.region
  let disp := s.disp.getD .zero
  { first := s.first, count := s.count, disp := disp, slot := s.slot,
    unit := if disp = .cipher then (info.map RegionInfo.unit).getD 1 else 1, ctx := s.ctx,
    region := info.map RegionInfo.region, forward := info.bind RegionInfo.forward, ringTime := none, limit := none,
    parts := [], reported := false }

/-- A segment's cache entry is loaded when it was walked, resolved to an entry, and is not stale (R72). -/
def loadSeg (c : Core) (s : Seg) : Core :=
  match s.entry with
  | some e => if s.walked && !s.stale then onCacheSet s.au (CacheSet.load e) c else c
  | none => c

/-- Steps 6 and 7 of R59. -/
def handOff (c : Core) : Core :=
  match c.rsv.current with
  | none => c
  | some res => enterTransfer res.cmd (res.segs.map planOf) (endRes (res.segs.foldl loadSeg c))

/-! ### Key slots (R85, R91, R92) -/

/-- A miss: a slot begins to load the record, or the request waits (R92). -/
def missSlot (i record : Nat) (c : Core) : Core :=
  match c.kst.choose with
  | some j => takeRead (.key record) (.keyLoad j) (setPhase (.loadWait i j true) (c.onKst fun k => k.startLoad j record))
  | none => setPhase (.slotWait i) c

/-- Step 5 of R59, from segment `i`: each CIPHER segment that holds no slot asks for one. -/
def grantSlots (g : Settings) : Nat → Nat → Core → Core
  | 0, _, c => c
  | fuel + 1, i, c =>
    match c.rsv.current with
    | none => c
    | some res =>
      match res.segs[i]? with
      | none => handOff c
      | some s =>
        match s.entry.bind CacheEntry.region, decide (s.disp = some .cipher) && s.slot.isNone with
        | some info, true =>
          match c.kst.holding info.key with
          | none => missSlot i info.key c
          | some j =>
            if (c.kst.slot j).state = .ready then
              if (c.kst.slot j).unit = info.unit then
                grantSlots g fuel (i + 1) (onSeg i (fun s => { s with slot := some j }) (c.onKst fun k => k.grant j))
              else refuseCmd g (.refused .keyLost) s.first c
            else setPhase (.loadWait i j false) c
        | _, _ => grantSlots g fuel (i + 1) c

/-- The slot requests of the resolution in progress, from segment `i`. -/
def slotsFrom (g : Settings) (i : Nat) (c : Core) : Core :=
  grantSlots g (((c.rsv.current.map fun r => r.segs.length).getD 0) + 1) i c

/-- The first LBA of segment `i` of the resolution in progress. -/
def segLba (i : Nat) (c : Core) : Nat := ((c.rsv.current.bind fun r => r.segs[i]?).map Seg.first).getD 0

/-- The request that waits on the load of slot `j`: its segment, and whether it began the load. -/
def loadWaiter (j : Nat) (c : Core) : Option (Nat × Bool) :=
  match c.rsv.current with
  | some res => match res.phase with
    | .loadWait i j' own => if j' = j then some (i, own) else none
    | _ => none
  | none => none

/-- The request that waits on slot `j` is answered again from the top of R91. -/
def answerAgain (g : Settings) (j : Nat) (c : Core) : Core :=
  match loadWaiter j c with
  | some (i, _) => slotsFrom g i c
  | none => c

/-! ### Flag updates (R82, R83) -/

/-- The region whose flag a segment needs and finds clear (R82). -/
def neededFlag (k : CmdKind) (s : Seg) : Option Nat :=
  match s.entry.bind CacheEntry.region with
  | none => none
  | some i =>
    match k with
    | .read => if i.played then none else some i.region
    | .write => if s.disp = some .cipher ∧ i.written = false then some i.region else none
    | _ => none

/-- The regions to update, in plan order, each once. -/
def neededUpdates (r : Resolution) : List Nat :=
  (r.segs.filterMap (neededFlag r.cmd.kind)).foldl (fun l x => if l.contains x then l else l ++ [x]) []

/-- The lock on descriptor `t` has entered the list: its read follows. -/
def flagLocked (t : Nat) (c : Core) : Core :=
  takeRead (.desc t) .flagUpdate (setPhase (.flagRead t) (enterLock (.desc t) .resolver c))

/-- The next flag update, or step 5. -/
def nextFlag (g : Settings) (c : Core) : Core :=
  match c.rsv.current with
  | none => c
  | some res =>
    match res.updates with
    | [] => slotsFrom g 0 c
    | t :: _ =>
      if lockRoom (.desc t) c then flagLocked t c else waitLock (.desc t) .resolver (setPhase (.flagLock t) c)

/-- Step 4 of R59. -/
def startFlags (g : Settings) (c : Core) : Core := nextFlag g (onRes (fun r => { r with updates := neededUpdates r }) c)

/-- Whether the update of region `t` serves a segment of a command of kind `k`: the segment needs the flag of `t`
(R82). -/
def Seg.servedBy (k : CmdKind) (t : Nat) (s : Seg) : Bool := decide (neededFlag k s = some t)

/-- The segments, in plan order, that the update of region `t` serves. -/
def servedSegs (t : Nat) (c : Core) : List Seg :=
  match c.rsv.current with
  | some r => r.segs.filter (Seg.servedBy r.cmd.kind t)
  | none => []

/-- The first LBA of the first segment that the update of region `t` serves (R86). -/
def servedLba (t : Nat) (c : Core) : Nat := ((servedSegs t c).head?.map Seg.first).getD 0

/-- The segments that needed the flag of `t` use the descriptor as read or as written. -/
def adoptDesc (t : Nat) (d : Desc) (c : Core) : Core :=
  onRes (fun r => { r with
    segs := r.segs.map fun s =>
      if s.servedBy r.cmd.kind t then
        { s with entry := s.entry.map fun e => { e with region := e.region.map fun i => regionInfo t i.forward d } }
      else s }) c

/-- The update of region `t` is over: the next one, or step 5. -/
def flagDone (g : Settings) (t : Nat) (d : Desc) (c : Core) : Core :=
  nextFlag g (onRes (fun r => { r with updates := r.updates.tail }) (adoptDesc t d c))

/-- The descriptor with the flag of a command kind set. -/
def Desc.flagged (k : CmdKind) (d : Desc) : Desc :=
  match k with
  | .read => { d with played := true }
  | .write => { d with written := true }
  | _ => d

/-- A segment was settled with the kind, unit size and key record of a descriptor. -/
def Seg.agrees (d : Desc) (s : Seg) : Bool :=
  (s.entry.bind CacheEntry.region).any fun i => decide (d.kind = i.kind) && decide (d.unit = i.unit) && decide (d.key = i.key)

/-- Why the recheck of R83 refuses a segment, if it does. -/
def recheck (k : CmdKind) (d : Desc) (s : Seg) : Option Reason :=
  match d.state with
  | .retired => some .noAccess
  | .empty | .forward => some .catalogue
  | .opened | .sealed =>
    if s.agrees d = false then some .catalogue
    else if k = .write ∧ (d.state = .sealed ∨ d.locked = true ∨ s.entry.any CacheEntry.protect = true) then some .protect
    else none

/-- The write step of a flag update (R83). -/
def flagWrite (g : Settings) (k : CmdKind) (t : Nat) (d : Desc) (c : Core) : Core :=
  let d' := d.flagged k
  let played := decide (k = .read)
  let written := decide (k = .write)
  if d' = d then flagDone g t d (setCacheFlags t played written (dropResolverLock c))
  else takeWrite (.desc t) (.desc d') (.flags t played written d') .flagUpdate (setPhase (.flagWrite t) c)

/-- The recheck of a flag update, of every segment it serves, and the write step (R83). A refusal names the first segment
the update serves (R86). -/
def flagContent (g : Settings) (t : Nat) (d : Desc) (c : Core) : Core :=
  match c.rsv.current with
  | none => c
  | some res =>
    match (servedSegs t c).findSome? (recheck res.cmd.kind d) with
    | some r => refuseCmd g (.refused r) (servedLba t c) c
    | none => flagWrite g res.cmd.kind t d c

/-- The locked read of a flag update ends (R83, R84). -/
def flagReadDone (g : Settings) (e : ReadEnd) (c : Core) : Core :=
  match c.rsv.current.map Resolution.phase with
  | some (.flagRead t) =>
    match e with
    | .content (.desc d) => flagContent g t d c
    | .timeout => refuseCmd g .driveTimeout (servedLba t c) c
    | _ => refuseCmd g (.refused .catalogue) (servedLba t c) c
  | _ => c

/-- The write of a flag update failed: the command is refused CATALOGUE (R84). -/
def flagWriteFailed (g : Settings) (t : Nat) (c : Core) : Core :=
  refuseCmd g (.refused .catalogue) (servedLba t c) c

/-! ### Lookup and walk (R67 to R79) -/

/-- What the entry found settles segment `i` to: the new core, and whether the resolution goes on. -/
def settleEntry (g : Settings) (k : CmdKind) (i : Nat) (s : Seg) (e : CacheEntry) (used : List CatSector) (c : Core) :
    Core × Bool :=
  let ctx := match e.region with
    | some info => if info.kind = .ring then attachedCtx info.region c else none
    | none => none
  match entryVerdict k e ctx with
  | .refuse r => (refuseCmd g (.refused r) s.first c, false)
  | .take d => (onSeg i (fun s => { s with disp := some d, entry := some e, ctx := ctx, used := used }) c, true)

/-- Settles segment `i` by a plain verdict. -/
def settlePlain (g : Settings) (i : Nat) (s : Seg) (used : List CatSector) (v : Verdict) (c : Core) : Core × Bool :=
  match v with
  | .refuse r => (refuseCmd g (.refused r) s.first c, false)
  | .take d => (onSeg i (fun s => { s with disp := some d, used := used }) c, true)

/-- The policy settles an UNASSIGNED entry, in READY (R21, R68). -/
def policyNow (c : Core) : Verdict :=
  match c.ctp.state, c.ctp.policy with
  | .ready, some p => policyVerdict p
  | _, _ => .refuse .notReady

/-- The walk of segment `i`, as far as the content read carries it. -/
def walkSeg (g : Settings) (res : Resolution) (i : Nat) (s : Seg) (c : Core) : Core × Bool :=
  let used := walkPath res.memo s.au
  match walkStep res.memo s.au with
  | .need x => (takeRead x .walk (setPhase (.walking i) c), false)
  | .unassigned => settlePlain g i s used (policyNow c) c
  | .entry e => settleEntry g res.cmd.kind i s e used c
  | .refuse r damage => (refuseCmd g (.refused r) s.first (raiseWhen g damage .catalogueDamage c), false)

/-- Steps 2 and 3 of R59 for segment `i`. -/
def settleSeg (g : Settings) (res : Resolution) (i : Nat) (s : Seg) (c : Core) : Core × Bool :=
  match s.window with
  | some a => settlePlain g i s [] (windowVerdict a res.cmd.kind) c
  | none =>
    if s.looked then walkSeg g res i s c
    else if c.ctp.state ≠ .ready then (refuseCmd g (.refused .notReady) s.first c, false)
    else
      match (c.rsv.cacheSet s.au).hit s.au with
      | some e => settleEntry g res.cmd.kind i s e [] (onCacheSet s.au CacheSet.advance (onSeg i (fun s => { s with looked := true }) c))
      | none =>
        walkSeg g res i s
          (onCacheSet s.au CacheSet.advance (onSeg i (fun s => { s with looked := true, walked := true }) c))

/-- Settles the segments from `i` on, in plan order, and goes on to step 4. -/
def settle (g : Settings) : Nat → Nat → Core → Core
  | 0, _, c => c
  | fuel + 1, i, c =>
    match c.rsv.current with
    | none => c
    | some res =>
      match res.segs[i]? with
      | none => startFlags g c
      | some s =>
        match settleSeg g res i s c with
        | (c, true) => settle g fuel (i + 1) c
        | (c, false) => c

/-- The resolution goes on from segment `i`. -/
def settleFrom (g : Settings) (i : Nat) (c : Core) : Core :=
  settle g (((c.rsv.current.map fun r => r.segs.length).getD 0) + 1) i c

/-- A walk read ends (R78). -/
def walkReadDone (g : Settings) (x : CatSector) (e : ReadEnd) (c : Core) : Core :=
  match c.rsv.current.map Resolution.phase with
  | some (.walking i) =>
    match e with
    | .content y => settleFrom g i (onRes (fun r => { r with memo := (x, y) :: r.memo.filter fun p => decide (p.1 ≠ x) }) c)
    | .timeout => refuseCmd g .driveTimeout (segLba i c) c
    | _ => refuseCmd g (.refused .catalogue) (segLba i c) c
  | _ => c

/-- The RSV takes the command at the head of the resolution queue (R58, R59). -/
def startResolution (g : Settings) (c : Core) : Core :=
  match c.rsv.current, c.rsv.queue with
  | none, x :: rest =>
    let res : Resolution := { cmd := x, segs := segmentsOf g x, memo := [], phase := .walking 0, updates := [] }
    let c := c.onRsv fun r => { r with queue := rest, current := some res }
    match badRange c.ctp.placement.reported x with
    | some lba => refuseCmd g .outOfRange lba c
    | none => settleFrom g 0 c
  | _, _ => c

end Sys2Proof.Machine
end

