-- ==== Sys2Proof/Machine/Loads.lean ====
section
/-! DEFINITION. Key loads (R93, R94), clearing a slot by its record (R96), releasing a lock, and the change notices
(R12, R13, R95). -/

namespace Sys2Proof.Machine

/-- A load that gives no key ends EMPTY: the request that began it is refused, any other that waits is answered again
(R91, Table 4-3). -/
def failLoad (g : Settings) (j : Nat) (st : LinkStatus) (c : Core) : Core :=
  let waiter := loadWaiter j c
  let c := c.onKst fun k => k.empty j
  match waiter with
  | some (i, true) => refuseCmd g st (segLba i c) c
  | some (i, false) => slotsFrom g i c
  | none => c

/-- A key load ends with the outcome of its read (Table 4-3). -/
def loadDone (g : Settings) (j : Nat) (e : ReadEnd) (c : Core) : Core :=
  match (c.kst.slot j).state, (c.kst.slot j).record with
  | .loading, some k =>
    match e with
    | .content (.key r) =>
      if r.live then answerAgain g j (c.onKst fun t => t.loaded j k r) else failLoad g j (.refused .keyLost) c
    | .content _ | .damaged => failLoad g j (.refused .keyLost) c
    | .driveError => failLoad g j (.refused .catalogue) c
    | .timeout => failLoad g j .driveTimeout c
  | _, _ => c

/-- Holds back the content of a load's read while a later lock on its record is held (R94). -/
def parkLoad (j : Nat) (r : Option KeyRec) (c : Core) : Core :=
  c.onKst fun k => k.onSlot j fun s => { s with parked := some r }

/-- The read of a key load, taken as access `seq`, ends. What it returned is held back while a later lock on the record is
held (R94, assumption log 15); a drive error or a timeout ends the load at once all the same (R93; DESIGN CHOICE,
assumption log 15). -/
def keyReadDone (g : Settings) (j seq : Nat) (e : ReadEnd) (c : Core) : Core :=
  match (c.kst.slot j).record with
  | none => c
  | some k =>
    let later := (findLock (.key k) c).any fun l => decide (seq < l.since)
    match e, later with
    | .content (.key r), true => parkLoad j (some r) c
    | .damaged, true => parkLoad j none c
    | _, _ => loadDone g j e c

/-- The slot that loads a record. -/
def loadingSlot (k : Nat) (c : Core) : Option Nat :=
  (c.kst.holding k).filter fun j => decide ((c.kst.slot j).state = .loading)

/-- A lock is released. A load that held back its content, which no write has overtaken, ends with it. -/
def releaseLock (g : Settings) (x : CatSector) (c : Core) : Core :=
  let c := dropLock x c
  match x with
  | .key k =>
    match loadingSlot k c with
    | some j =>
      match (c.kst.slot j).parked with
      | some r =>
        loadDone g j (match r with | some r => .content (.key r) | none => .damaged)
          (c.onKst fun t => t.onSlot j fun s => { s with parked := none })
      | none => c
    | none => c
  | _ => c

/-- Clears the slot that holds record `k` (R96): a load is cancelled, and a request that waits on it is answered
again. -/
def clearRecord (g : Settings) (k : Nat) (c : Core) : Core :=
  match c.kst.holding k with
  | none => c
  | some j =>
    if (c.kst.slot j).state = .loading then
      let waiter := loadWaiter j c
      let c := (cancelLoad j c).onKst fun t => t.empty j
      match waiter with
      | some (i, _) => slotsFrom g i c
      | none => c
    else c.onKst fun t => t.clear j

/-- The notice of a key record (R94, R95): a READY slot is cleared unless the record was left LIVE; a load whose read was
taken before the writer's lock reads again. -/
def noticeKey (k : Nat) (live : Bool) (c : Core) : Core :=
  match c.kst.holding k with
  | none => c
  | some j =>
    if (c.kst.slot j).state = .ready then if live then c else c.onKst fun t => t.clear j
    else if (c.kst.slot j).parked.isSome then
      c.onKst fun t => t.onSlot j fun s => { s with parked := none, reread := true }
    else c

/-- The change notice of a catalogue write (Table 1-7). -/
def deliver (n : Notice) (c : Core) : Core :=
  match n with
  | .none => c
  | .page p changed => markStale (.page p) (invalidate (fun e => changed.contains e.au) c)
  | .edit r => markStale (.desc r) (invalidate (CacheEntry.names r) c)
  | .flags r played written _ => setCacheFlags r played written c
  | .key k live => noticeKey k live c

/-- The notice of a failed write covers everything derived from the sector (R13). -/
def failedNotice (x : CatSector) : Notice :=
  match x with
  | .header => .none
  | .page p => .page p ((List.range 120).map fun e => 120 * p + e)
  | .desc r => .edit r
  | .key k => .key k false

/-- After the lock's release, a load that must read again takes its new read (R94). -/
def rereadKey (j : Nat) (c : Core) : Core :=
  match (c.kst.slot j).state, (c.kst.slot j).record with
  | .loading, some k =>
    if (c.kst.slot j).reread && (findLock (.key k) c).isNone then
      takeRead (.key k) (.keyLoad j) (c.onKst fun t => t.onSlot j fun s => { s with reread := false })
    else c
  | _, _ => c

end Sys2Proof.Machine
end

