-- ==== Sys2Proof/Machine/Edits.lean ====
section
/-! DEFINITION. The long management requests that the CTP and the RGU execute (chapters 1, 2 and 5): the check phase,
the write phase, the drains and the detach wait (R32), and FORMAT. A request's work is its `Job`; each function here
answers one event of it. -/

namespace Sys2Proof.Machine

/-! ### What a request names -/

/-- The region whose descriptor a request checks and writes; the absorbed one for JOIN. -/
def Request.region : Request → Nat
  | .create p => p.region
  | .assign r _ _ _ | .setLocked r _ | .seal r | .unseal r | .delete r | .purge r | .setFlags r _ _ | .readRegion r
  | .writeArea r _ | .ringAttach r _ | .ringRetention r _ => r
  | .join _ b => b
  | .format _ | .setPolicy _ | .unassign _ _ | .setClear _ _ | .setAuProtect _ _ _ | .readMap _ _ | .ringDetach _ => 0

/-- The AU range of a request, as a first AU and a count. -/
def Request.aus : Request → Nat × Nat
  | .create p => (p.firstAu, p.auCount)
  | .assign _ _ f n | .unassign f n | .setClear f n | .setAuProtect f n _ | .readMap f n => (f, n)
  | _ => (0, 0)

/-- Whether an AU lies in the range of a request. -/
def Request.covers (q : Request) (au : Nat) : Bool := decide (q.aus.1 ≤ au) && decide (au < q.aus.1 + q.aus.2)

/-- JOIN and PURGE scan every page in use. -/
def Request.scans : Request → Bool
  | .join _ _ | .purge _ => true
  | _ => false

/-- The first and the last map page of a request (R33, R52, R56). -/
def Request.pages (p : Placement) (q : Request) : Nat × Nat :=
  if q.scans then (0, p.pages - 1) else (q.aus.1 / 120, (q.aus.1 + q.aus.2 - 1) / 120)

/-- The key record a request counts and writes. -/
def Job.keyRecord (j : Job) : Nat :=
  match j.req with
  | .create p => if p.share then (j.descB.map Desc.key).getD 0 else p.source
  | .join _ _ => (j.descB.map Desc.key).getD 0
  | _ => (j.descA.map Desc.key).getD 0

/-- The source of CREATE: a key record or a region. -/
def Job.source (j : Job) : Nat :=
  match j.req with
  | .create p => p.source
  | _ => 0

/-- The sector a stage reads or writes. -/
def Job.sector (j : Job) : CatSector :=
  match j.stage with
  | .checkDesc | .writeDesc | .writeLast => .desc j.req.region
  | .checkKey => .key j.source
  | .checkSource => .desc j.source
  | .checkSourceKey | .writeKey => .key j.keyRecord
  | .checkRecount | .checkAll => .desc j.index
  | .checkPages | .writePages => .page j.index
  | .checkNames => .desc (j.names.headD 0)
  | .checkTarget => .desc ((j.descA.bind Desc.forward).getD 0)
  | .writeHeader | .draining | .detaching | .formatDrain | .formatFirst | .formatRecords | .formatLast => .header

/-! ### Going on and ending -/

/-- The request goes to a check stage: one plain read (R32). -/
def toCheck (st : Stage) (i : Nat) (j : Job) (c : Core) : Core :=
  let j := { j with stage := st, index := i }
  takeRead j.sector .request (setJob j c)

/-- The request goes to a write stage: it locks the sector, at once or in its turn, and reads it (R14, R32). -/
def toWrite (st : Stage) (i : Nat) (j : Job) (c : Core) : Core :=
  let j := { j with stage := st, index := i }
  if lockRoom j.sector c then takeRead j.sector .request (enterLock j.sector .request (setJob j c))
  else waitLock j.sector .request (setJob j c)

/-- Releases the lock the request holds, if any. -/
def releaseHeld (g : Settings) (c : Core) : Core :=
  match c.ctp.locks.find? fun l => decide (l.holder = .request) with
  | some l => releaseLock g l.sector c
  | none => c

/-- The request ends refused. -/
def refuseJob (g : Settings) (r : Reason) (c : Core) : Core := endRequest g (.refused r) (releaseHeld g c)

/-- The request ends DONE with its results. -/
def finishJob (g : Settings) (results : List Byte) (c : Core) : Core := endRequest g (.done results) c

/-- Goes on when a check holds, else refuses. -/
def require (g : Settings) (ok : Bool) (r : Reason) (go : Core → Core) (c : Core) : Core :=
  if ok then go c else refuseJob g r c

/-! ### Drains and detach waits (R34, R113, R114) -/

/-- Whether a plan holds a segment resolved to or forwarded by region `r`. -/
def planNames (r : Nat) (plan : List PlanSeg) : Bool :=
  plan.any fun s => decide (s.region = some r) || decide (s.forward = some r)

/-- The commands resolved to region `r` before now (R34). A walk that has read the FORWARD descriptor `r` and not yet its
target has no settled segment, reads `r` again (R73) and is refused: its command is left out, where R12 counts it as resolved
before the write and R34 also asks for a segment whose forward region is `r` (DESIGN CHOICE, assumption log 39). -/
def drainSet (r : Nat) (c : Core) : List Nat :=
  (c.txe.list.filter fun e => planNames r e.plan).map TxEntry.id ++
    match c.rsv.current with
    | some res => if res.segs.any fun s => s.entry.any (CacheEntry.names r) then [res.cmd.id] else []
    | none => []

/-- Every command resolved or in resolution (R21). -/
def allCommands (c : Core) : List Nat :=
  c.txe.list.map TxEntry.id ++ match c.rsv.current with
    | some res => [res.cmd.id]
    | none => []

/-- A drain has ended: none of its commands is left. -/
def drained (ids : List Nat) (c : Core) : Bool := ids.all fun i => !(allCommands c).contains i

/-- Whether a command holds ring context `x` (R110). -/
def ctxHeld (x : Nat) (c : Core) : Bool :=
  (c.txe.list.any fun e => e.plan.any fun s => decide (s.ctx = some x)) ||
    match c.rsv.current with
    | some res => res.segs.any fun s => decide (s.ctx = some x)
    | none => false

/-- The drain of SEAL or DELETE has ended. -/
def afterDrain (g : Settings) (j : Job) (c : Core) : Core :=
  match j.req with
  | .delete _ => toWrite .writeKey 0 j c
  | _ => finishJob g [] c

/-- The drain of a descriptor write begins; an empty one ends at once (R34). -/
def startDrain (g : Settings) (j : Job) (c : Core) : Core :=
  let ids := drainSet j.req.region c
  if ids.isEmpty then afterDrain g j c else setJob { j with stage := .draining, drain := ids } c

/-- The detach wait has ended: the context becomes FREE, and RING-DETACH ends or DELETE goes on (R113, R115). -/
def afterDetach (g : Settings) (j : Job) (c : Core) : Core :=
  let c := freeRing j.ctx c
  match j.req with
  | .delete _ => toWrite .writeDesc 0 j c
  | _ => finishJob g [] c

/-- A detach begins; one that finds no holder ends at once (R114). -/
def startDetach (g : Settings) (x : Nat) (j : Job) (c : Core) : Core :=
  let j := { j with stage := .detaching, ctx := x }
  let c := beginDetach x c
  if ctxHeld x c then setJob j c else afterDetach g j (setJob j c)

/-! ### The check phase -/

/-- The write phase of CREATE begins; for NEW the slot is cleared, a key drawn and wrapped first (R29, R37). -/
def startCreate (g : Settings) (p : CreateParams) (j : Job) (c : Core) : Core :=
  if p.share then toWrite .writeKey 0 j c
  else
    let c := clearRecord g p.source c
    let (key, kst) := c.kst.drawKey
    toWrite .writeKey 0 { j with wrapped := kst.wrap p.source key } (c.onKst fun _ => kst)

/-- The key source of CREATE is good: the pages of a RING are next (R36). -/
def afterSource (g : Settings) (j : Job) (c : Core) : Core :=
  match j.req with
  | .create p => if p.kind = .ring then toCheck .checkPages (j.req.pages c.ctp.placement).1 j c else startCreate g p j c
  | _ => c

/-- The region a recount leaves out (R31): the one PURGE purges. -/
def Job.leftOut (j : Job) : Nat :=
  match j.req with
  | .purge r => r
  | _ => 0

/-- A recount begins. -/
def startRecount (j : Job) (c : Core) : Core :=
  toCheck .checkRecount (if j.leftOut = 1 then 2 else 1) { j with recount := 0, forwardFound := false } c

/-- The recount has read every descriptor. -/
def recountDone (g : Settings) (j : Job) (c : Core) : Core :=
  match j.req with
  | .purge _ => require g (!j.forwardFound) .conflict (toWrite .writePages 0 j) c
  | _ => require g (decide (j.recount = 0)) .badState (afterSource g j) c

/-- The next descriptor of a recount. -/
def nextRecount (g : Settings) (j : Job) (c : Core) : Core :=
  let i := if j.index + 1 = j.leftOut then j.index + 2 else j.index + 1
  if i ≤ Config.maxRegion then toCheck .checkRecount i j c else recountDone g j c

/-- Whether a descriptor counts for key record `k` (R31). -/
def Desc.counts (k : Nat) (d : Desc) : Bool := (d.inUse || decide (d.state = .forward)) && decide (d.key = k)

/-- A descriptor of a recount has been read; a damaged one counts (R31). -/
def recountStep (g : Settings) (j : Job) (d : Option Desc) (c : Core) : Core :=
  match d with
  | none => nextRecount g { j with recount := j.recount + 1 } c
  | some d =>
    nextRecount g
      { j with
        recount := if d.counts j.keyRecord then j.recount + 1 else j.recount
        forwardFound := j.forwardFound || (decide (d.state = .forward) && decide (d.forward = some j.leftOut)) } c

/-- JOIN's checks on what it has read (R51). -/
def joinChecks (g : Settings) (j : Job) (c : Core) : Core :=
  match j.descA, j.descB with
  | some a, some b =>
    if !(decide (a.kind = .recording) && decide (b.kind = .recording) && a.inUse && b.inUse) then refuseJob g .badState c
    else if a.key ≠ b.key ∨ a.unit ≠ b.unit then refuseJob g .conflict c
    else if a.cls ≠ b.cls then refuseJob g .copyClass c
    else if j.forwardFound then refuseJob g .conflict c
    else toWrite .writeDesc 0 j c
  | _, _ => c

/-- A descriptor of JOIN's check phase has been read. -/
def joinStep (g : Settings) (j : Job) (a b : Nat) (d : Desc) (c : Core) : Core :=
  let j := { j with
    descA := if j.index = a then some d else j.descA
    descB := if j.index = b then some d else j.descB
    forwardFound := j.forwardFound || decide (d.state = .forward) }
  if j.index < Config.maxRegion then toCheck .checkAll (j.index + 1) j c else joinChecks g j c

/-- The minutes of a descriptor's ring part. -/
def Desc.minutes (d : Desc) : Nat := (d.ring.map RingPart.minutes).getD 0

/-- READ-REGION's results: descriptor bytes 0 .. 19, then the software area (R47, Table 11-8). -/
def descResults (d : Desc) : List Byte := leBytes 20 d.encode ++ d.area

/-- RING-ATTACH's results (R112, Table 11-8); the ignored byte is 0 (DESIGN CHOICE, assumption log 36). -/
def attachResults (x : Nat) (p : RingPart) : List Byte :=
  leBytes 1 x ++ leBytes 1 0 ++ leBytes 2 (8 * p.auCount) ++ leBytes 8 (p.firstAu * Config.auSectors)

/-- Descriptor r has been read in the check phase. -/
def descChecked (g : Settings) (j : Job) (d : Desc) (c : Core) : Core :=
  let j := { j with descA := some d }
  let recording := decide (d.kind = .recording)
  match j.req with
  | .create p =>
    require g (decide (d.state = .empty)) .badState (toCheck (if p.share then .checkSource else .checkKey) 0 j) c
  | .assign _ _ _ _ =>
    require g (decide (d.state = .opened) && recording) .badState
      (toCheck .checkPages (j.req.pages c.ctp.placement).1 j) c
  | .setLocked _ _ | .setFlags _ _ _ | .writeArea _ _ => require g d.inUse .badState (toWrite .writeDesc 0 j) c
  | .seal _ => require g (decide (d.state = .opened) && recording) .badState (toWrite .writeDesc 0 j) c
  | .unseal _ =>
    require g (decide (d.state = .sealed) && recording) .badState
      (require g (decide (d.cls = .free)) .copyClass (toWrite .writeDesc 0 j)) c
  | .delete r =>
    require g (!(decide (d.state = .empty) || decide (d.state = .retired) || (d.inUse && d.locked))) .badState
      (fun c => match attachedCtx r c, d.kind with
        | some x, .ring => startDetach g x j c
        | _, _ => toWrite .writeDesc 0 j c) c
  | .purge _ =>
    match d.state with
    | .retired => startRecount j c
    | .forward => toCheck .checkTarget 0 j c
    | _ => refuseJob g .badState c
  | .readRegion _ => finishJob g (descResults d) c
  | .ringAttach r x =>
    match decide (d.state = .opened), d.ring with
    | true, some p => finishJob g (attachResults x p) (attachRing x r d p c)
    | _, _ => refuseJob g .badState c
  | .ringRetention _ m =>
    require g (decide (d.state = .opened) && decide (d.kind = .ring)) .badState
      (fun c => if m < d.minutes then toWrite .writeDesc 0 j c
        else finishJob g (leBytes 2 d.minutes) (raiseWhen g (decide (d.minutes < m)) .clamped c)) c
  | _ => c

/-- The entries of the request's range on a page, with their AUs. -/
def Job.inRange (j : Job) (es : List MapEntry) : List (MapEntry × Nat) :=
  (es.zipIdx (120 * j.index)).filter fun e => j.req.covers e.2

/-- Every page of the range has been read in the check phase. -/
def pagesChecked (g : Settings) (j : Job) (c : Core) : Core :=
  match j.req with
  | .create p => startCreate g p j c
  | .readMap _ _ => finishJob g (j.entries.flatMap fun e => leBytes 4 e.encode) c
  | .assign _ _ _ _ | .unassign _ _ =>
    let names := (j.entries.filterMap fun e => match e with | .region r _ => some r | _ => none).foldl
      (fun l r => if l.contains r then l else l ++ [r]) []
    if names.isEmpty then toWrite .writePages (j.req.pages c.ctp.placement).1 { j with names := [] } c
    else toCheck .checkNames 0 { j with names := names } c
  | _ => toWrite .writePages (j.req.pages c.ctp.placement).1 j c

/-- A page has been read in the check phase. -/
def pageChecked (g : Settings) (j : Job) (es : List MapEntry) (c : Core) : Core :=
  let found := (j.inRange es).map Prod.fst
  let next (j : Job) (c : Core) : Core :=
    if j.index < (j.req.pages c.ctp.placement).2 then toCheck .checkPages (j.index + 1) j c else pagesChecked g j c
  match j.req with
  | .create _ | .setClear _ _ => require g (found.all fun e => decide (e = .unassigned)) .conflict (next j) c
  | .setAuProtect _ _ _ => next j c
  | _ => next { j with entries := j.entries ++ found } c

/-- What a region named by an entry of the range makes of ASSIGN or UNASSIGN (R39, R41). -/
def nameVerdict (j : Job) (d : Desc) : Option Reason :=
  if d.state = .empty then some .catalogue
  else if d.kind = .ring then some .conflict
  else if d.state = .retired then none
  else match j.req with
    | .assign _ _ _ _ => if some d.key = j.descA.map Desc.key then none else some .conflict
    | _ => if d.state = .opened then none else some .conflict

/-- A descriptor that an entry of the range names has been read. -/
def nameChecked (g : Settings) (j : Job) (d : Desc) (c : Core) : Core :=
  match nameVerdict j d with
  | some r => refuseJob g r (raiseWhen g (decide (r = .catalogue)) .catalogueDamage c)
  | none =>
    match j.names.tail with
    | [] => toWrite .writePages (j.req.pages c.ctp.placement).1 { j with names := [] } c
    | ns => toCheck .checkNames 0 { j with names := ns } c

/-- The target of a FORWARD region that PURGE purges has been read (R57). -/
def targetChecked (g : Settings) (j : Job) (t : Desc) (c : Core) : Core :=
  match j.descA with
  | none => c
  | some b =>
    if t.inUse && b.validTarget t then startRecount { j with target := b.forward } c
    else if t.state = .retired then startRecount { j with target := none } c
    else refuseJob g .catalogue (raiseFlag g .catalogueDamage c)

/-! ### The write phase -/

/-- CREATE's descriptor (R37). -/
def createdDesc (p : CreateParams) (key : Nat) (source : Option Desc) : Desc :=
  { state := .opened, kind := p.kind, cls := if p.share then (source.map Desc.cls).getD p.cls else p.cls, unit := p.unit,
    key := key, locked := false, played := false, written := false,
    ring := if p.kind = .ring then some { firstAu := p.firstAu, auCount := p.auCount, minutes := p.minutes } else none,
    forward := none, area := [] }

/-- The descriptor a request writes, from the content read under the lock; none refuses it STATE (R126). -/
def Job.newDesc (j : Job) (d : Desc) : Option Desc :=
  match j.req with
  | .create p => some (createdDesc p j.keyRecord j.descB)
  | .setLocked _ on => some { d with locked := on }
  | .setFlags _ played written => some { d with played := played, written := written }
  | .writeArea _ area => some { d with area := area }
  | .seal _ => some { d with state := .sealed, cls := if d.cls = .once then .noMore else d.cls }
  | .unseal _ => some { d with state := .opened }
  | .join a _ => some { d with state := .forward, forward := some a }
  | .delete _ | .purge _ => some { d with state := .retired, forward := none }
  | .ringRetention _ m =>
    match decide (d.state = .opened), d.ring with
    | true, some p => some { d with ring := some { p with minutes := m } }
    | _, _ => none
  | _ => none

/-- What a request makes of the map entry of an AU (R38, R40 to R43, R52, R56, R57). -/
def Job.newEntry (j : Job) (au : Nat) (e : MapEntry) : MapEntry :=
  match j.req with
  | .join a b => match e with
    | .region r p => if r = b then .region a p else e
    | _ => e
  | .purge b => match e with
    | .region r p => if r = b then match j.target with | some a => .region a p | none => .unassigned else e
    | _ => e
  | q =>
    if !q.covers au then e
    else match q with
      | .create p => .region p.region false
      | .assign r on _ _ => .region r on
      | .unassign _ _ => .unassigned
      | .setClear _ _ => .clear false
      | .setAuProtect _ _ on => match e with
        | .unassigned => .unassigned
        | .clear _ => .clear on
        | .region r _ => .region r on
      | _ => e

/-- A key record with a count: EMPTY, with its unit size, at 0 (R30). -/
def KeyRec.withCount (k : KeyRec) (n : Nat) : KeyRec := if n = 0 then KeyRec.blank k.unit else { k with count := n }

/-- The key record a request writes, or none when it goes on without writing (R29, R30, R56). -/
def Job.newKey (j : Job) (k : KeyRec) : Option KeyRec :=
  match j.req with
  | .create p =>
    some (if p.share then { k with count := k.count + 1 } else { live := true, unit := p.unit, count := 1, wrapped := j.wrapped })
  | .purge _ => if k.live && decide (j.recount < k.count) then some (k.withCount j.recount) else none
  | _ => if k.live then some (k.withCount (k.count - 1)) else none

/-- The step after the key record: `cleared` says that it was written EMPTY, and its slot is to be cleared (R54, R56). -/
def afterKey (g : Settings) (j : Job) (cleared : Bool) (c : Core) : Core :=
  let c := if cleared then clearRecord g j.keyRecord c else c
  match j.req with
  | .create _ => toWrite .writeDesc 0 j c
  | .join _ _ => finishJob g (leBytes 4 j.changed) c
  | .delete _ => finishJob g (leBytes 2 j.keyCount) c
  | .purge _ => toWrite .writeLast 0 j c
  | _ => c

/-- The step after the map pages. -/
def afterPages (g : Settings) (j : Job) (c : Core) : Core :=
  match j.req with
  | .join _ _ => toWrite .writeLast 0 j c
  | .purge _ => if j.descA.any fun d => decide (d.state = .forward) then toWrite .writeDesc 0 j c else toWrite .writeKey 0 j c
  | _ => finishJob g [] c

/-- The next page of the write phase. Each covering page is locked and read before the request ends, also where no entry on
it or after it changes (R32), while R40 has ASSIGN end DONE when the write of the last changed page completes (DESIGN CHOICE,
assumption log 41). -/
def nextPage (g : Settings) (j : Job) (c : Core) : Core :=
  if j.index < (j.req.pages c.ctp.placement).2 then toWrite .writePages (j.index + 1) j c else afterPages g j c

/-- A sector has been read under the lock in the write phase: it is written, or released unwritten (R32). -/
def lockedContent (g : Settings) (j : Job) (x : CatContent) (c : Core) : Core :=
  match j.stage, x with
  | .writeKey, .key k =>
    match j.newKey k with
    | some k' =>
      takeWrite (.key j.keyRecord) (.key k') (.key j.keyRecord k'.live) .request (setJob { j with keyCount := k'.count } c)
    | none => afterKey g { j with keyCount := k.count } false (releaseHeld g (setJob { j with keyCount := k.count } c))
  | .writeDesc, .desc d =>
    match j.newDesc d with
    | some d' => takeWrite (.desc j.req.region) (.desc d') (.edit j.req.region) .request (setJob j c)
    | none => refuseJob g .badState c
  | .writeLast, .desc _ => takeWrite (.desc j.req.region) (.desc Desc.blank) (.edit j.req.region) .request (setJob j c)
  | .writePages, .page es =>
    let aus := (es.zipIdx (120 * j.index)).filterMap fun e => if j.newEntry e.2 e.1 = e.1 then none else some e.2
    if aus.isEmpty then nextPage g j (releaseHeld g c)
    else
      takeWrite (.page j.index) (.page ((es.zipIdx (120 * j.index)).map fun e => j.newEntry e.2 e.1)) (.page j.index aus) .request
        (setJob { j with changed := j.changed + aus.length } c)
  | .writeHeader, .header h =>
    match j.req with
    | .setPolicy p => takeWrite .header (.header { h with policy := p }) .none .request (setJob j c)
    | _ => c
  | _, _ => c

/-- A read of the request in progress ends (R10, R32). -/
def jobRead (g : Settings) (e : ReadEnd) (c : Core) : Core :=
  match c.mgw.job with
  | none => c
  | some j =>
    match e with
    | .driveError | .timeout => refuseJob g .drive c
    | .damaged => if j.stage = .checkRecount then recountStep g j none c else refuseJob g .catalogue c
    | .content x =>
      match j.stage, x with
      | .checkDesc, .desc d => descChecked g j d c
      | .checkKey, .key k => if k.live then startRecount j c else afterSource g j c
      | .checkRecount, .desc d => recountStep g j (some d) c
      | .checkSource, .desc d =>
        match j.req with
        | .create p =>
          require g (d.inUse && decide (d.kind = .recording) && decide (d.unit = p.unit)) .badState
            (toCheck .checkSourceKey 0 { j with descB := some d }) c
        | _ => c
      | .checkSourceKey, .key k => require g (decide (k.count ≠ 4095)) .conflict (afterSource g j) c
      | .checkPages, .page es => pageChecked g j es c
      | .checkNames, .desc d => nameChecked g j d c
      | .checkTarget, .desc d => targetChecked g j d c
      | .checkAll, .desc d =>
        match j.req with
        | .join a b => joinStep g j a b d c
        | _ => c
      | _, x => lockedContent g j x c

/-- The step after a descriptor write. -/
def afterDesc (g : Settings) (j : Job) (c : Core) : Core :=
  match j.req with
  | .create p => if p.kind = .ring then toWrite .writePages (j.req.pages c.ctp.placement).1 j c else finishJob g [] c
  | .seal _ | .delete _ => startDrain g j c
  | .join _ _ => toWrite .writePages 0 j c
  | .purge _ => toWrite .writeKey 0 j c
  | .ringRetention r m => finishJob g (leBytes 2 m) (lowerLimit r m c)
  | _ => finishJob g [] c

/-- A write of the request in progress has completed, its notice is delivered and its lock released (R11). -/
def jobWritten (g : Settings) (c : Core) : Core :=
  match c.mgw.job with
  | none => c
  | some j =>
    match j.stage with
    | .writeKey => afterKey g j (decide (j.keyCount = 0)) c
    | .writeDesc => afterDesc g j c
    | .writePages => nextPage g j c
    | .writeLast =>
      match j.req with
      | .join _ _ => toWrite .writeKey 0 j c
      | _ => finishJob g (leBytes 4 j.changed ++ leBytes 2 j.keyCount) c
    | .writeHeader =>
      match j.req with
      | .setPolicy p => finishJob g [] (c.onCtp fun t => { t with policy := some p })
      | _ => c
    | _ => c

/-- A write of the request in progress has failed (R13); RING-RETENTION lowers the limit all the same (R126). -/
def jobWriteFailed (g : Settings) (c : Core) : Core :=
  match c.mgw.job with
  | none => c
  | some j =>
    match j.req with
    | .ringRetention r m => refuseJob g .drive (lowerLimit r m c)
    | _ => refuseJob g .drive c

/-! ### FORMAT (R21 to R23) -/

/-- FORMAT's record writes: key records, descriptors, map pages. -/
def formatCount : Nat := 6211

/-- Record write `i` of FORMAT. -/
def formatSector (i : Nat) : CatSector :=
  if i < 1023 then .key (i + 1) else if i < 5118 then .desc (i - 1022) else .page (i - 5118)

/-- What FORMAT writes in a sector. -/
def formatContent (x : CatSector) : CatContent :=
  match x with
  | .key _ => .key (KeyRec.blank 1)
  | .desc _ => .desc Desc.blank
  | _ => .page (List.replicate 120 .unassigned)

/-- FORMAT's header. -/
def formatHeader (complete : Bool) (j : Job) (p : Policy) (c : Core) : CatContent :=
  .header { complete := complete, identity := j.identity, capacity := c.ctp.placement.usable, policy := p }

/-- FORMAT is taken: FORMATTING, the cache invalid, the drain begun (R21). -/
def startFormat (p : Policy) (c : Core) : Core :=
  let c := markStaleWhere (fun _ => true) (invalidate (fun _ => true) (c.onCtp fun t => { t with state := .formatting }))
  setJob { Job.start (.format p) .formatDrain with drain := allCommands c } c

/-- Every slot becomes EMPTY, the loads in flight cancelled (R21, R96). -/
def clearSlots (c : Core) : Core := ((List.range 24).foldl (fun c j => cancelLoad j c) c).onKst Kst.clearEvery

/-- The drain has ended: the contexts freed, the slots cleared, an identity drawn, the first header write taken. -/
def formatDrained (p : Policy) (j : Job) (c : Core) : Core :=
  let c := clearSlots (c.onRings fun _ => [none, none, none, none])
  let (identity, kst) := c.kst.drawIdentity
  let j := { j with stage := .formatFirst, identity := identity, outstanding := 1 }
  takeWrite .header (formatHeader false j p c) .none .format (setJob j (c.onKst fun _ => kst))

/-- Takes the next record write. -/
def formatNext (j : Job) (c : Core) : Core :=
  let x := formatSector j.index
  takeWrite x (formatContent x) .none .format (setJob { j with index := j.index + 1, outstanding := j.outstanding + 1 } c)

/-- FORMAT has failed and its last write has ended (R23). -/
def formatFailed (g : Settings) (c : Core) : Core :=
  endRequest g (.refused .drive)
    (c.onCtp fun t => { t with identity := none, policy := none, startUp := .incomplete, state := .absent })

/-- A write of FORMAT has completed (R22). -/
def formatWritten (g : Settings) (c : Core) : Core :=
  match c.mgw.job with
  | none => c
  | some j =>
    match j.req with
    | .format p =>
      let j := { j with outstanding := j.outstanding - 1 }
      if j.failed then if j.outstanding = 0 then formatFailed g c else setJob j c
      else
        match j.stage with
        | .formatFirst =>
          let j := { j with stage := .formatRecords, index := 0 }
          let c := formatNext j (c.onCtp fun t => { t with identity := some j.identity })
          formatNext { j with index := 1, outstanding := 1 } c
        | .formatRecords =>
          if j.index < formatCount then formatNext j c
          else if j.outstanding ≠ 0 then setJob j c
          else
            takeWrite .header (formatHeader true j p c) .none .format
              (setJob { j with stage := .formatLast, outstanding := 1 } c)
        | .formatLast =>
          finishJob g [] (c.onCtp fun t => { t with policy := some p, startUp := .ready, state := .ready })
        | _ => c
    | _ => c

/-- FORMAT's writes that have not been issued. -/
def unissuedFormat (c : Core) : Nat := (c.ctp.queue ++ c.dlp.ctpLine).countP fun a => decide (a.owner = .format)

/-- A write of FORMAT has failed: no more are issued, and FORMAT ends when none is left (R23). -/
def formatWriteFailed (g : Settings) (c : Core) : Core :=
  match c.mgw.job with
  | none => c
  | some j =>
    let left := j.outstanding - 1 - unissuedFormat c
    let c := withdrawAccesses (fun a => decide (a.owner = .format)) c
    if left = 0 then formatFailed g c else setJob { j with failed := true, outstanding := left } c

end Sys2Proof.Machine
end

