-- ==== Sys2Proof/Machine/Catalogue.lean ====
section
/-! DEFINITION. The Catalogue Port's accesses (R9 to R13): which go ahead, and what the end of each does for the
requester of Table 1-6; the end of the start-up check (R17). -/

namespace Sys2Proof.Machine

/-! ### The start-up check -/

/-- The start-up check ends: the result decides the state, and START-UP is raised (R17). -/
def endStartUp (g : Settings) (r : StartUpResult) (c : Core) : Core :=
  raiseFlag g .startUp
    (c.onCtp fun t => { t with startUp := r, state := if r = .ready then .ready else .absent })

/-- The tests on the header, in the order of Table 1-9. -/
def headerResult (p : Placement) (h : Header) : StartUpResult :=
  if h.complete = false then .incomplete else if h.capacity ≠ p.usable then .capacityMismatch else .ready

/-- The header read of the start-up check ends. -/
def startUpRead (g : Settings) (e : ReadEnd) (c : Core) : Core :=
  match e with
  | .content (.header h) =>
    let r := headerResult c.ctp.placement h
    endStartUp g r
      (if r = .ready then c.onCtp fun t => { t with identity := some h.identity, policy := some h.policy } else c)
  | .content _ | .damaged => endStartUp g .noCatalogue c
  | .driveError | .timeout => endStartUp g .driveFailed c

/-! ### Ends of accesses -/

/-- A catalogue read ends: its requester takes the outcome; a damaged sector raises CATALOGUE-DAMAGE, but for the
start-up check (R8, R10). The content of a read whose requester is gone is discarded (R20, R96; assumption log 13). -/
def accessRead (g : Settings) (a : Access) (e : ReadEnd) (c : Core) : Core :=
  let c := raiseWhen g (decide (e = .damaged) && decide (a.owner ≠ .startUp)) .catalogueDamage c
  match a.owner with
  | .startUp => startUpRead g e c
  | .walk => walkReadDone g a.sector e c
  | .flagUpdate => flagReadDone g e c
  | .keyLoad j => keyReadDone g j a.seq e c
  | .request => jobRead g e c
  | .orphanRead => dropLock a.sector c
  | .format | .discarded | .orphanWrite => c

/-- What a catalogue read that ends with good drive status hands on (R8). -/
def goodRead (a : Access) (s : Sector) (c : Core) : ReadEnd :=
  match verifySector c.kst.keys c.ctp a.sector s with
  | some x => .content x
  | none => .damaged

/-- A catalogue write completes: notice, release, report (R11). -/
def accessWritten (g : Settings) (a : Access) (n : Notice) (c : Core) : Core :=
  match a.owner with
  | .request => jobWritten g (releaseLock g a.sector (deliver n c))
  | .flagUpdate =>
    let c := dropLock a.sector (deliver n c)
    match n with
    | .flags t _ _ d => flagDone g t d c
    | _ => c
  | .orphanWrite => dropLock a.sector (markStale a.sector (deliver n c))
  | .format => formatWritten g c
  | _ => c

/-- A catalogue write fails (R13): notice, CATALOGUE-DAMAGE, release, requester. -/
def accessWriteFailed (g : Settings) (a : Access) (c : Core) : Core :=
  match a.owner with
  | .request =>
    jobWriteFailed g (releaseLock g a.sector (raiseFlag g .catalogueDamage (deliver (failedNotice a.sector) c)))
  | .flagUpdate =>
    let c := dropLock a.sector (raiseFlag g .catalogueDamage (deliver (failedNotice a.sector) c))
    match a.sector with
    | .desc t => flagWriteFailed g t c
    | _ => c
  | .orphanWrite => dropLock a.sector (raiseFlag g .catalogueDamage (deliver (failedNotice a.sector) c))
  | .format => formatWriteFailed g (raiseFlag g .catalogueDamage c)
  | _ => c

/-- A catalogue access ends without good drive status. -/
def accessFailed (g : Settings) (a : Access) (e : ReadEnd) (c : Core) : Core :=
  match a.dir with
  | .read => accessRead g a e c
  | .write _ _ => accessWriteFailed g a c

/-! ### Going ahead (R9) -/

/-- Whether the owner of an access is the holder of a lock. -/
def AccessOwner.holds (o : AccessOwner) (h : LockHolder) : Bool :=
  match o, h with
  | .request, .request | .flagUpdate, .resolver | .orphanRead, .orphan | .orphanWrite, .orphan => true
  | _, _ => false

/-- An access taken after a lock of another holder entered the list waits for its release (R15). -/
def waitsForLock (a : Access) (c : Core) : Bool :=
  c.ctp.locks.any fun l => decide (l.sector = a.sector) && !a.owner.holds l.holder && decide (l.since ≤ a.seq)

/-- A write waits for the reads of its sector taken before its lock entered the list, or, in FORMAT, before it
(R11). -/
def waitsForRead (a : Access) (c : Core) : Bool :=
  let before := if a.owner = .format then a.seq else ((findLock a.sector c).map Lock.since).getD a.seq
  match a.dir with
  | .read => false
  | .write _ _ => (outstandingAccesses c).any fun b =>
      decide (b.sector = a.sector) && decide (b.dir = .read) && decide (b.seq < before)

/-- The first access of the queue that goes ahead, while the CTP holds fewer than 2 drive tags. -/
def nextAhead (c : Core) : Option Access :=
  if ctpHeld c.dlp < 2 then c.ctp.queue.find? fun a => !waitsForLock a c && !waitsForRead a c else none

/-- One access goes ahead to the CTP line; in LOST it fails at once (R184). -/
def goAhead (g : Settings) (a : Access) (c : Core) : Core :=
  let c := c.onCtp fun t => { t with queue := t.queue.erase a }
  if c.dlp.link = .lost then accessFailed g a .timeout c else c.onDlp fun d => { d with ctpLine := d.ctpLine ++ [a] }

def pumpSome (g : Settings) : Nat → Core → Core
  | 0, c => c
  | fuel + 1, c =>
    match nextAhead c with
    | some a => pumpSome g fuel (goAhead g a c)
    | none => c

/-- Every access that can go ahead does. An access that fails at once ends its requester's work, which takes at most one
more access in its stead. -/
def pump (g : Settings) (c : Core) : Core := pumpSome g (2 * c.ctp.queue.length + 8) c

end Sys2Proof.Machine
end

