-- ==== Sys2Proof/Machine/Drive.lean ====
section
/-! DEFINITION. The Drive Link Port (chapter 8): bring-up and the start-up check it leads to, the tag arbiter, PLAIN
requests, the ends of requests, recovery and LOST. -/

namespace Sys2Proof.Machine

/-! ### PLAIN requests (R147, R164, R167, R178) -/

/-- A PLAIN request ends: the status goes to the RLP unless a reset has abandoned the command. -/
def plainDone (p : PlainReq) (st : LinkStatus) (c : Core) : Core :=
  if p.live then
    giveStatus .untagged st (if p.kind = .flush then c.onTxe fun t => { t with flush := .none } else c)
  else c

/-- A PLAIN request is handed to the DLP; in LOST it fails at once (R184). -/
def handPlain (p : PlainReq) (c : Core) : Core :=
  if c.dlp.link = .lost then plainDone p .driveTimeout c else c.onDlp fun d => { d with plain := d.plain ++ [p] }

/-! ### Failing requests (R179) -/

/-- The owner of a request takes TIMEOUT. -/
def bodyTimedOut (g : Settings) (b : ReqBody) (c : Core) : Core :=
  match b with
  | .catalogue a => accessFailed g a .timeout c
  | .transfer q => transferFailed q (fun _ => .driveTimeout) c
  | .plain p => plainDone p .driveTimeout c

/-- Fails the requests of the table, the first first: the spec gives no order, and the model takes the order of issue, or of
reissue after an error (R180, R183; DESIGN CHOICE, assumption log 35). -/
def failTable (g : Settings) : Nat → Core → Core
  | 0, c => c
  | fuel + 1, c =>
    match c.dlp.table with
    | [] => c
    | q :: rest => failTable g fuel (bodyTimedOut g q.body (c.onDlp fun d => { d with table := rest }))

/-- Fails the accesses of the CTP line. -/
def failCtpLine (g : Settings) : Nat → Core → Core
  | 0, c => c
  | fuel + 1, c =>
    match c.dlp.ctpLine with
    | [] => c
    | a :: rest => failCtpLine g fuel (accessFailed g a .timeout (c.onDlp fun d => { d with ctpLine := rest }))

/-- Fails the tag requests of the TXE line. -/
def failTxeLine : Nat → Core → Core
  | 0, c => c
  | fuel + 1, c =>
    match c.dlp.txeLine with
    | [] => c
    | q :: rest => failTxeLine fuel (transferFailed q (fun _ => .driveTimeout) (c.onDlp fun d => { d with txeLine := rest }))

/-- Fails the PLAIN requests that wait. -/
def failPlain : Nat → Core → Core
  | 0, c => c
  | fuel + 1, c =>
    match c.dlp.plain with
    | [] => c
    | p :: rest => failPlain fuel (plainDone p .driveTimeout (c.onDlp fun d => { d with plain := rest }))

/-- Fails every request that waits (R184): the CTP line, then the TXE line, then the PLAIN requests. The spec gives no order
(DESIGN CHOICE, assumption log 35). -/
def failWaiting (g : Settings) (c : Core) : Core :=
  let c := failCtpLine g c.dlp.ctpLine.length c
  let c := failTxeLine c.dlp.txeLine.length c
  failPlain c.dlp.plain.length c

/-! ### Bring-up (R174, R175, R183, R184) -/

/-- An attempt begins with a link reset, which starts the ready limit. -/
def startAttempt (g : Settings) (c : Core) : Core :=
  c.onDlp fun d => { d with bring := .waitReady (g.timer + Config.readyCycles) }

/-- The start-up bring-up begins (R175, R185). -/
def startBringUp (g : Settings) (c : Core) : Core :=
  startAttempt g (c.onDlp fun d => { d with link := .bringUp, identity := none, attempts := 0 })

/-- The placement figures of a drive (Table 1-1). -/
def Placement.ofCapacity (capacity : Nat) : Placement :=
  let u := min capacity Config.maxUsable
  let rc := u - Config.catalogueSectors
  let aus := (rc + 65535) / 65536
  { usable := u, base := rc, reported := rc, auCount := aus, pages := (aus + 119) / 120 }

/-- The suitability test (R18). -/
def DriveIdentity.suitable (i : DriveIdentity) : Bool :=
  decide (i.sectorSize = 512) && decide (Config.minUsable ≤ min i.capacity Config.maxUsable)

/-- The start-up check from its step 2 (R17 to R19). -/
def startUpCheck (g : Settings) (i : DriveIdentity) (c : Core) : Core :=
  if !i.suitable then endStartUp g .unsuitable (c.onCtp fun t => { t with placement := Placement.zero })
  else
    let c := c.onCtp fun t => { t with placement := Placement.ofCapacity i.capacity }
    if c.kst.keys.isNone then endStartUp g .noKeys c else takeRead .header .startUp c

/-- The link becomes LOST (R184); at start-up the check ends LINK-LOST (R18). -/
def enterLost (g : Settings) (c : Core) : Core :=
  let start := decide (c.dlp.link = .bringUp)
  let c := raiseFlag g .driveLost (c.onDlp fun d => { d with link := .lost, bring := .idle })
  let c := failWaiting g c
  pump g (if start then endStartUp g .linkLost (c.onCtp fun t => { t with placement := Placement.zero }) else c)

/-- A bring-up attempt fails: the next begins, or the third leaves the link LOST. -/
def attemptFailed (g : Settings) (c : Core) : Core :=
  let c := c.onDlp fun d => { d with attempts := d.attempts + 1 }
  if c.dlp.attempts < 3 then startAttempt g c else enterLost g c

/-- An attempt succeeds: the link is UP. -/
def linkUp (c : Core) : Core := c.onDlp fun d => { d with link := .up, attempts := 0, bring := .idle }

/-- The identity read of an attempt ends with the sector's figures (R175, R183). -/
def identityRead (g : Settings) (i : DriveIdentity) (c : Core) : Core :=
  match c.dlp.link with
  | .bringUp => pump g (startUpCheck g i ((linkUp c).onDlp fun d => { d with identity := some i }))
  | .recovery => if c.dlp.identity = some i then linkUp c else attemptFailed g c
  | _ => c

/-! ### The arbiter (R177, R178) -/

/-- A request enters the table under a drive tag. -/
def issue (g : Settings) (tag : Nat) (b : ReqBody) (c : Core) : Core :=
  c.onDlp fun d => { d with table := d.table ++ [{ tag := tag, body := b, deadline := newDeadline g }] }

/-- The arbiter may grant: the link is UP and no PLAIN request waits or is in the table. -/
def mayGrant (c : Core) : Bool :=
  decide (c.dlp.link = .up) && c.dlp.plain.isEmpty && c.dlp.table.all fun q => !q.isPlain

/-- One grant: the head of the CTP line, else of the TXE line, takes the lowest free tag. -/
def grantTag (g : Settings) (c : Core) : Core :=
  match mayGrant c, freeTag c.dlp with
  | true, some t =>
    match c.dlp.ctpLine, decide (ctpHeld c.dlp < 2) with
    | a :: rest, true => issue g t (.catalogue a) (c.onDlp fun d => { d with ctpLine := rest })
    | _, _ =>
      match c.dlp.txeLine with
      | q :: rest => issue g t (.transfer q) (c.onDlp fun d => { d with txeLine := rest })
      | [] => c
  | _, _ => c

/-- A move of a PASS command's data phase, as an item of the link list (R164, R168). -/
def passExchange : Config.PassMove → Exchange
  | .toDrive more => .draw .untagged .pass (more + 1)
  | .toRecorder x xs => .delivery .untagged .pass (x :: xs)

/-- The moves of a live PASS join the link list in the order the drive makes them, when the request is sent (R178; that
they join it at once is DESIGN CHOICE; assumption log 11). -/
def handMoves (p : PlainReq) (moves : List Config.PassMove) (c : Core) : Core :=
  if p.kind = .pass ∧ p.live = true then
    moves.foldl (fun c m => handExchange (passExchange m) c) (c.onDlp fun d => { d with passes := d.passes + 1 })
  else c

/-- A waiting PLAIN request is sent when the table is empty (R178). -/
def issuePlain (g : Settings) (c : Core) : Core :=
  match c.dlp.plain, c.dlp.table with
  | p :: rest, [] =>
    if c.dlp.link = .up then
      handMoves p (Config.passPhase c.dlp.passes) (issue g 0 (.plain p) (c.onDlp fun d => { d with plain := rest }))
    else c
  | _, _ => c

/-! ### Ends of requests (R179 to R183) -/

/-- The first deadline passes: DRIVE-TIMEOUT, every request failed, recovery (R181, R183). -/
def recover (g : Settings) (c : Core) : Core :=
  let c := (raiseFlag g .driveTimeout c).onDlp fun d => { d with link := .recovery, attempts := 0 }
  pump g (startAttempt g (failTable g c.dlp.table.length c))

/-- A deadline of the table has passed. -/
def deadlinePassed (g : Settings) (c : Core) : Bool := c.dlp.table.any fun q => decide (q.deadline ≤ g.timer)

/-- The requests the drive set aside are reissued, in ascending tag order, with new deadlines (R180). The table stands in
the order in which its requests were last issued. -/
def reissue (g : Settings) (c : Core) : Core :=
  c.onDlp fun d => { d with
    table := (d.table.map fun q => { q with deadline := newDeadline g }).insertionSort fun q r => q.tag ≤ r.tag }

/-- The owner of a QUEUED request takes ERROR. -/
def bodyErrored (g : Settings) (b : ReqBody) (lba : Option Nat) (c : Core) : Core :=
  match b with
  | .catalogue a => accessFailed g a .driveError c
  | .transfer q => transferFailed q (fun e => .media (mediaLba e q lba)) c
  | .plain _ => c

/-- The drive ends the QUEUED request on a tag with an error (R180). -/
def queuedErrored (g : Settings) (tag : Nat) (lba : Option Nat) (c : Core) : Core :=
  match findReq tag c with
  | some q =>
    if q.isPlain then c
    else pump g (bodyErrored g q.body lba (reissue g (raiseFlag g .driveError (dropReq tag c))))
  | none => c

/-- The CTP's read on a tag completes with good status. -/
def catalogueRead (g : Settings) (tag : Nat) (s : Sector) (c : Core) : Core :=
  match (findReq tag c).map DriveReq.body with
  | some (.catalogue a) =>
    match a.dir with
    | .read =>
      let c := dropReq tag c
      pump g (accessRead g a (goodRead a s c) c)
    | .write _ _ => c
  | _ => c

/-- The CTP's write on a tag completes with good status. -/
def catalogueWritten (g : Settings) (tag : Nat) (c : Core) : Core :=
  match (findReq tag c).map DriveReq.body with
  | some (.catalogue a) =>
    match a.dir with
    | .read => c
    | .write _ n => pump g (accessWritten g a n (dropReq tag c))
  | _ => c

/-- Whether the item in hand of an entry is a merge read. -/
def atMergeRead (id : Nat) (c : Core) : Bool :=
  match (findTx id c).map TxEntry.items with
  | some (.mergeRead _ :: _) => true
  | _ => false

/-- The TXE's request on a tag, of a kind, ends with good status. -/
def transferEnds (tag : Nat) (ok : TxReq → Bool) (live : TxReq → Core → Core) (c : Core) : Core :=
  match (findReq tag c).map DriveReq.body with
  | some (.transfer q) => if ok q then transferDone q (live q) (dropReq tag c) else c
  | _ => c

/-- A read piece ends (R139). -/
def readPieceEnds (tag : Nat) (data : List Sector) (c : Core) : Core :=
  transferEnds tag (fun q => decide (q.kind = .read) && decide (data.length = q.count) && !atMergeRead q.id c)
    (fun q => readPieceDone q.id data) c

/-- A merge read ends (R141). -/
def mergeReadEnds (tag : Nat) (data : List Sector) (c : Core) : Core :=
  transferEnds tag (fun q => decide (q.kind = .read) && decide (data.length = q.count) && atMergeRead q.id c)
    (fun q => mergeReadDone q.id data) c

/-- A write piece ends (R140). -/
def writePieceEnds (tag : Nat) (c : Core) : Core :=
  transferEnds tag (fun q => decide (q.kind = .write)) (fun q => writePieceDone q.id) c

/-- A drive discard ends (R146). -/
def driveDiscardEnds (tag : Nat) (c : Core) : Core :=
  transferEnds tag (fun q => decide (q.kind = .discard))
    (fun q c => match findTx q.id c with | some e => completeTransfer .good e c | none => c) c

/-- The PLAIN request of a kind in the table. -/
def plainInTable (k : PlainKind) (c : Core) : Option PlainReq :=
  match c.dlp.table with
  | [q] => match q.body with
    | .plain p => if p.kind = k then some p else none
    | _ => none
  | _ => none

/-- The status of a PLAIN request by how the drive ends it (R148, R164). -/
def endStatus : DriveEnd → LinkStatus
  | .good => .good
  | .error lba => .media (lba.getD 0)

/-- Whether the drive ended a request with an error, which raises DRIVE-ERROR (R179). -/
def endsInError : DriveEnd → Bool
  | .good => false
  | .error _ => true

/-- The drive's flush ends (R148). -/
def flushEnds (g : Settings) (r : DriveEnd) (c : Core) : Core :=
  match plainInTable .flush c with
  | some p => plainDone p (endStatus r) (raiseWhen g (endsInError r) .driveError (dropReq 0 c))
  | none => c

/-- A PASS request ends: the sectors the drive moves last go to the recorder before the status (R164). -/
def passEnds (g : Settings) (r : DriveEnd) (data : List Sector) (c : Core) : Core :=
  match plainInTable .pass c with
  | some p =>
    let c := raiseWhen g (endsInError r) .driveError (dropReq 0 c)
    plainDone p (endStatus r)
      (if p.live = true ∧ data ≠ [] then handExchange (.delivery .untagged .pass data) c else c)
  | none => c

/-- The window code of the part: 64 zero bits when the OTP validity mark is absent (R187). -/
def Otp.code (o : Otp) : BitVec 64 := if o.valid then o.windowCode else 0

/-- The IDENTIFY read ends (R167). -/
def identifyEnds (g : Settings) (r : SectorEnd) (c : Core) : Core :=
  match plainInTable .identify c with
  | some p =>
    let c := dropReq 0 c
    match r with
    | .good s =>
      let s := rewriteIdentity c.ctp.placement.reported g.otp.code s
      plainDone p .good (if p.live then handExchange (.delivery .untagged .identify [s]) c else c)
    | .error _ => plainDone p (.media 0) (raiseFlag g .driveError c)
  | none => c

/-! ### FLUSH (R147) -/

/-- A write of the CTP or the TXE is in flight. -/
def DriveReq.isWrite (q : DriveReq) : Bool :=
  match q.body with
  | .catalogue a => decide (a.dir ≠ .read)
  | .transfer t => decide (t.kind = .write)
  | .plain _ => false

/-- The TXE hands the waiting FLUSH to the DLP. -/
def issueFlush (c : Core) : Core :=
  if c.txe.flush = .waiting ∧ c.dlp.table.all (fun q => !q.isWrite) = true then
    handPlain { kind := .flush, frame := none, live := true, data := [] } (c.onTxe fun t => { t with flush := .issued })
  else c

end Sys2Proof.Machine
end

