-- ==== Sys2Proof/Machine/Link.lean ====
section
/-! DEFINITION. The Recorder Link Port and the Command Screen (chapter 7): arrival checks, screening, the link list. -/

namespace Sys2Proof.Machine

/-! ### Kinds (R156, Table 11-15) -/

/-- The kind of a command code. -/
def kindOf (code : BitVec 8) : CmdKind :=
  if code = 0x25 ∨ code = 0x60 then .read
  else if code = 0x35 ∨ code = 0x61 then .write
  else if code = 0x06 ∨ code = 0x64 then .discard
  else if code = 0xEA then .flush
  else if code = 0xEC then .identify
  else .other

/-- The sector count of a READ or WRITE: a count field of 0 stands for 65,536 (Table 7-1). -/
def sectorCount (count : Nat) : Nat := if count = 0 then 65536 else count

/-! ### Screening (R159 to R164) -/

/-- The CSC refuses a command: a hand-off of the RLP to the last-refusal record, with the frame's LBA (R170). -/
def screenRefuse (f : Frame) (st : LinkStatus) (c : Core) : Core := giveRefusal f.tag st f.lba c

/-- A transfer command joins the tail of the resolution queue (R58). -/
def queueTransfer (f : Frame) (k : CmdKind) (ranges : List (Nat × Nat)) (c : Core) : Core :=
  routeTo .rsv f.tag (c.onRsv fun r =>
    { r with
      queue := r.queue ++ [{ id := r.nextId, tag := f.tag, kind := k, start := f.lba, count := sectorCount f.count, ranges := ranges }]
      nextId := r.nextId + 1 })

/-- A window command is handed to the MGW (R162). -/
def handWindow (w : WinCmd) (c : Core) : Core := c.onMgw fun m => { m with inbox := m.inbox ++ [w] }

/-- The range check of a READ or WRITE (R160). -/
def screenRange (f : Frame) (k : CmdKind) (c : Core) : Core :=
  let n := sectorCount f.count
  let e := f.lba + n - 1
  let rc := c.ctp.placement.reported
  if e < rc then queueTransfer f k [] c
  else if rc ≤ f.lba ∧ e ≤ rc + 15 then
    if k = .write then handExchange (.draw f.tag .windowWrite n) (routeTo .mgw f.tag c)
    else handWindow { tag := f.tag, write := false, start := f.lba, count := n, data := [] } (routeTo .mgw f.tag c)
  else screenRefuse f .outOfRange c

/-- An OTHER command matches an admission entry (R163). -/
def AdmissionEntry.admits (e : AdmissionEntry) (f : Frame) : Bool :=
  e.enable && decide (f.code &&& e.codeMask = e.codeValue &&& e.codeMask) &&
    decide (f.feature &&& e.featureMask = e.featureValue &&& e.featureMask)

/-- The action an OTHER command takes (R163). -/
def admissionAction (g : Settings) (f : Frame) : AdmissionAction :=
  ((g.admission.find? fun e => e.admits f).map AdmissionEntry.action).getD g.defaultAction

/-- The admission match (R163, R164). -/
def screenOther (g : Settings) (f : Frame) (c : Core) : Core :=
  match admissionAction g f with
  | .pass => handPlain { kind := .pass, frame := some f, live := true, data := [] } (routeTo .dlp f.tag c)
  | .refuse => screenRefuse f (.refused .admission) (raiseFlag g .admissionRefusal c)

/-- The CSC screens a command (R159). -/
def screen (g : Settings) (f : Frame) (c : Core) : Core :=
  if c.ctp.state = .unknown then screenRefuse f (.refused .notReady) c
  else
    match kindOf f.code with
    | .read => screenRange f .read c
    | .write => screenRange f .write c
    | .discard =>
      if f.count = 0 ∨ 8 < f.count then screenRefuse f .outOfRange c
      else handExchange (.draw f.tag .discardPayload f.count) c
    | .flush => (routeTo .txe f.tag c).onTxe fun t => { t with flush := .waiting }
    | .identify =>
      handPlain { kind := .identify, frame := some f, live := true, data := [] } (routeTo .dlp f.tag c)
    | .other => screenOther g f c

/-! ### Arrival (R158) -/

/-- Why a frame is refused at arrival, if it is. -/
def arrivalRefusal (t : List CmdEntry) (tag : CmdTag) : Option LinkStatus :=
  match tag with
  | .tagged _ =>
    if t.any fun e => decide (e.tag = .untagged) then some .sequence
    else if t.any fun e => decide (e.tag = tag) then some .tagInUse
    else none
  | .untagged => if t.isEmpty then none else some .sequence

/-- The RLP takes a frame from the link (R158). -/
def takeFrame (g : Settings) (f : Frame) (c : Core) : Core :=
  match arrivalRefusal c.rlp.table f.tag with
  | some st => handExchange (.arrivalRefusal f.tag st) (recordRefusal f.tag st f.lba c)
  | none =>
    screen g f (c.onRlp fun r =>
      { r with table := r.table ++
          [{ tag := f.tag, kind := kindOf f.code, frame := f, holder := .csc, state := .screening, status := none }] })

/-- The RLP takes no frame while an arrival refusal or a DISCARD payload is on the link list (R158, R161). -/
def linkHolds (c : Core) : Bool :=
  c.rlp.linkList.any fun x => match x with
    | .arrivalRefusal _ _ => true
    | .draw _ .discardPayload _ => true
    | _ => false

/-- A frame arrives: it is taken, or waits on the link behind those that are held. -/
def arrive (g : Settings) (f : Frame) (c : Core) : Core :=
  if linkHolds c || !c.rlp.held.isEmpty then c.onRlp fun r => { r with held := r.held ++ [f] } else takeFrame g f c

/-- The frames that have been held are taken, in order, until one makes the RLP hold again. -/
def takeHeld (g : Settings) : Nat → Core → Core
  | 0, c => c
  | fuel + 1, c =>
    match linkHolds c, c.rlp.held with
    | false, f :: rest => takeHeld g fuel (takeFrame g f (c.onRlp fun r => { r with held := rest }))
    | _, _ => c

/-! ### The link list (R168) -/

/-- The exchange at the head of the link list has been served. -/
def popExchange (c : Core) : Core := c.onRlp fun r => { r with linkList := r.linkList.tail }

/-- The frame of the command with a tag. -/
def frameOf (tag : CmdTag) (c : Core) : Option Frame := (c.rlp.table.find? fun e => decide (e.tag = tag)).map CmdEntry.frame

/-- The 64 range entries of a payload sector: 6 bytes of start LBA, 2 bytes of length (PRESUMED; assumption log 9). -/
def payloadRanges (s : Sector) : List (Nat × Nat) :=
  (List.range 64).map fun i => (field s.toNat (8 * i) 6, field s.toNat (8 * i + 6) 2)

/-- A DISCARD's payload is complete: the CSC hands it to the resolution queue (R161). -/
def payloadDrawn (g : Settings) (tag : CmdTag) (data : List Sector) (c : Core) : Core :=
  match frameOf tag c with
  | some f =>
    let c := queueTransfer f .discard (data.flatMap payloadRanges) c
    takeHeld g c.rlp.held.length c
  | none => c

/-- A window write has been drawn whole (R162). -/
def windowDrawn (tag : CmdTag) (data : List Sector) (c : Core) : Core :=
  match frameOf tag c with
  | some f => handWindow { tag := tag, write := true, start := f.lba, count := data.length, data := data } c
  | none => c

/-- Sectors drawn for a live PASS go to the drive with its request (R164). -/
def passDrawn (data : List Sector) (c : Core) : Core :=
  c.onDlp fun d => { d with table := d.table.map fun q =>
    match q.body with
    | .plain p => if p.kind = .pass ∧ p.live = true then { q with body := .plain { p with data := p.data ++ data } } else q
    | _ => q }

/-- A data draw completes. -/
def dataDrawn (g : Settings) (data : List Sector) (c : Core) : Core :=
  match c.rlp.linkList with
  | .draw tag use n :: _ =>
    if data.length = n then
      match use with
      | .writePiece id => writePieceDrawn id data (popExchange c)
      | .windowWrite => windowDrawn tag data (popExchange c)
      | .discardPayload => payloadDrawn g tag data (popExchange c)
      | .pass => passDrawn data (popExchange c)
    else c
  | _ => c

/-- A data delivery has been sent. -/
def dataDelivered (c : Core) : Core :=
  match c.rlp.linkList with
  | .delivery _ (.transfer id) _ :: _ => deliverySent id (popExchange c)
  | .delivery _ _ _ :: _ => popExchange c
  | _ => c

/-- A completion has been sent: the entry gives its command up (R169). When it is RESTART's, RESTART takes effect
next (R197). -/
def completionSent (c : Core) : Core :=
  match c.rlp.linkList with
  | .completion tag _ :: _ =>
    let c := (popExchange c).onRlp fun r => { r with table := r.table.filter fun e => decide (e.tag ≠ tag) }
    if c.mgw.restart = .waiting tag then c.onMgw fun m => { m with restart := .sent } else c
  | _ => c

/-- An arrival refusal has been sent: the RLP takes frames again (R158). -/
def arrivalRefusalSent (g : Settings) (c : Core) : Core :=
  match c.rlp.linkList with
  | .arrivalRefusal _ _ :: _ =>
    let c := popExchange c
    takeHeld g c.rlp.held.length c
  | _ => c

end Sys2Proof.Machine
end

