-- ==== Sys2Proof/Machine/Window.lean ====
section
/-! DEFINITION. The Management Window (chapter 9): how window commands are taken, the opening record, window reads, and
the taking of a request write by R190. -/

namespace Sys2Proof.Machine

/-! ### Window commands (R187, R188) -/

/-- What a window command is, by the table's rows. -/
inductive WinKind where
  | opening
  | request (code : Nat)
  | otherWrite
  | read
  deriving DecidableEq, Repr

/-- The bytes of a window write as one number. -/
def WinCmd.record (w : WinCmd) : Nat := joined w.data

/-- The sector carries the opening mark (Table 11-6). -/
def WinCmd.hasMark (w : WinCmd) : Bool := decide (field w.record 0 8 = openingMark)

/-- While CLOSED a one-sector write at RC is examined as an opening record; while OPEN it is one when it carries the
mark, and the other writes of 1 .. 8 sectors at RC are request writes. -/
def winKind (rc : Nat) (opened : Bool) (w : WinCmd) : WinKind :=
  if !w.write then .read
  else if w.start ≠ rc then .otherWrite
  else if w.count = 1 ∧ (opened = false ∨ w.hasMark = true) then .opening
  else if opened = true ∧ w.count ≤ 8 then .request (field w.record 0 2)
  else .otherWrite

/-- The window command the MGW takes next, with its kind; none while RESTART stands between its request and its effect
(R197). -/
def nextWindow (c : Core) : Option (WinCmd × WinKind) :=
  match c.mgw.restart, c.mgw.inbox with
  | .none, w :: _ => some (w, winKind c.ctp.placement.reported c.mgw.opened w)
  | _, _ => none

/-- The window command in hand leaves the MGW's list. -/
def popWindow (c : Core) : Core := c.onMgw fun m => { m with inbox := m.inbox.tail }

/-- An opening record is examined (R187); while the window is OPEN it has no effect (R188). -/
def takeOpening (g : Settings) (c : Core) : Core :=
  match nextWindow c with
  | some (w, .opening) =>
    let accepted := w.hasMark && decide (BitVec.ofNat 64 (field w.record 8 8) = g.otp.code)
    giveStatus w.tag .good ((popWindow c).onMgw fun m => { m with opened := m.opened || accepted })
  | _ => c

/-- The sectors of a window read (R187, R189). -/
def windowSectors (c : Core) (w : WinCmd) : List Sector :=
  if c.mgw.opened = true ∧ w.start = c.ctp.placement.reported + 8 ∧ w.count ≤ 8 then toSectors w.count c.mgw.response.bytes
  else List.replicate w.count zeroSector

/-- A window read is taken (R189). -/
def answerRead (c : Core) : Core :=
  match nextWindow c with
  | some (w, .read) =>
    giveStatus w.tag .good (handExchange (.delivery w.tag .window (windowSectors c w)) (popWindow c))
  | _ => c

/-- A window write that is neither an opening record nor a request write (R187, R188). -/
def takeOther (c : Core) : Core :=
  match nextWindow c with
  | some (w, .otherWrite) => giveStatus w.tag .good (popWindow c)
  | _ => c

/-! ### Request writes (R190 to R192) -/

/-- A request is IN-PROGRESS. -/
def busy (c : Core) : Bool := decide (c.mgw.response.status = .inProgress)

/-- Changes the blocks of a state. -/
def State.onCore (s : State) (f : Core → Core) : State := { s with core := f s.core }

/-- Sets the status of the response record. -/
def respond (st : RespStatus) (s : State) : State := s.onCore (setResponse st)

/-- The request is refused. -/
def refuse (r : Reason) (s : State) : State := respond (.refused r) s

/-- The request ends DONE at once. -/
def done (results : List Byte) (s : State) : State := respond (.done results) s

/-- The response record is replaced with the request's code and serial (R190). -/
def replaceRecord (code v : Nat) (c : Core) : Core :=
  c.onMgw fun m => { m with response := { code := code, serial := field v 2 2, status := .none } }

/-- The request write in hand leaves the MGW, refused WINDOW-BUSY (R192). -/
def refuseBusy (w : WinCmd) (c : Core) : Core := giveRefusal w.tag (.refused .windowBusy) w.start (popWindow c)

/-- A request write is taken by R190: busy, shape, then the request's own work on its record `v`; the write completes
GOOD once the record is replaced. -/
def answerRequest (code : Nat) (run : WinCmd → Nat → State → State) (w : WinCmd) (s : State) : State :=
  if busy s.core then s.onCore (refuseBusy w)
  else
    let v := w.record
    let s := s.onCore fun c => replaceRecord code v (popWindow c)
    let s := if 512 * w.count < 8 + field v 4 2 then refuse .badParameter s else run w v s
    s.onCore fun c => pump s.set (giveStatus w.tag .good c)

/-- The request write at the head of the MGW's list, when it carries this code. -/
def takeRequest (code : Nat) (run : WinCmd → Nat → State → State) (s : State) : State :=
  match nextWindow s.core with
  | some (w, .request code') => if code' = code then answerRequest code run w s else s
  | _ => s

/-- A request whose parameter length the table fixes (R206). -/
def sized (p : Nat) (run : Nat → State → State) (_w : WinCmd) (v : Nat) (s : State) : State :=
  if field v 4 2 = p then run v s else refuse .badParameter s

/-- A request of a fixed length whose parameters parse. -/
def parsed {α : Type} (p : Nat) (parse : Placement → Nat → Option α) (run : α → State → State) : WinCmd → Nat → State → State :=
  sized p fun v s => match parse s.core.ctp.placement v with
    | some a => run a s
    | none => refuse .badParameter s

/-- Table 9-4's codes: 01h .. 22h (Table 11-8). -/
def knownCode (code : Nat) : Bool := decide (1 ≤ code) && decide (code ≤ 0x22)

/-- A request write with an unknown code (R190). -/
def takeUnknown (s : State) : State :=
  match nextWindow s.core with
  | some (w, .request code) =>
    if knownCode code then s else answerRequest code (fun _ _ s => refuse .unknownRequest s) w s
  | _ => s

/-! ### Immediate checks -/

/-- The catalogue lock refuses the request (R196). -/
def unlessLocked (run : State → State) (s : State) : State := if s.set.catalogueLock then refuse .locked s else run s

/-- The catalogue state must be READY (R32). -/
def whenReady (run : State → State) (s : State) : State :=
  if s.core.ctp.state = .ready then run s else refuse .notReady s

/-- A long request becomes IN-PROGRESS and begins. -/
def beginLong (run : Core → Core) (s : State) : State := s.onCore fun c => run (setResponse .inProgress c)

/-- A long request whose first step is a check read. -/
def beginCheck (st : Stage) (i : Nat) (req : Request) (s : State) : State :=
  beginLong (toCheck st i (Job.start req st)) s

end Sys2Proof.Machine
end

