-- ==== Sys2Proof/Machine/Events.lean ====
section
/-! DEFINITION. The meanings of the drive's events, of the DLP's own, and of the waits that end inside the part. A row
whose moment has not come leaves the state as it is (assumption log 5). -/

namespace Sys2Proof.Machine

/-! ### The drive link (chapter 8) -/

/-- DRIVE_READY: the drive reports ready after a link reset; the identity read is sent (R174). A report taken after the
10 seconds have passed, but before READY_LIMIT_EXPIRY, still counts (DESIGN CHOICE, assumption log 34). -/
def driveReady (g : Settings) (c : Core) : Core :=
  match c.dlp.bring with
  | .waitReady _ => c.onDlp fun d => { d with bring := .readIdentity (newDeadline g) }
  | _ => c

def execDriveReady (s : State) : Host.Outcome State Fault Refusal := .next (s.onCore (driveReady s.set))

/-- READY_LIMIT_EXPIRY (R174). -/
def readyLimit (g : Settings) (c : Core) : Core :=
  match c.dlp.bring with
  | .waitReady limit => if limit ≤ g.timer then attemptFailed g c else c
  | _ => c

def execReadyLimitExpiry (s : State) : Host.Outcome State Fault Refusal := .next (s.onCore (readyLimit s.set))

/-- IDENTITY_READ_END (R174, R175, R183). An end taken after the read's deadline has passed, but before
IDENTITY_READ_TIMEOUT, still counts (DESIGN CHOICE, assumption log 34). -/
def identityEnds (g : Settings) (r : SectorEnd) (c : Core) : Core :=
  match c.dlp.bring, r with
  | .readIdentity _, .good s => identityRead g (identityFigures s) c
  | .readIdentity _, .error _ => attemptFailed g c
  | _, _ => c

def execIdentityReadEnd (r : SectorEnd) (s : State) : Host.Outcome State Fault Refusal :=
  .next (s.onCore (identityEnds s.set r))

/-- IDENTITY_READ_TIMEOUT (R174, R181). -/
def identityTimeout (g : Settings) (c : Core) : Core :=
  match c.dlp.bring with
  | .readIdentity deadline => if deadline ≤ g.timer then attemptFailed g c else c
  | _ => c

def execIdentityReadTimeout (s : State) : Host.Outcome State Fault Refusal := .next (s.onCore (identityTimeout s.set))

/-- TAG_GRANT: one grant (R177). -/
def execTagGrant (s : State) : Host.Outcome State Fault Refusal := .next (s.onCore (grantTag s.set))

/-- PLAIN_ISSUE (R178). -/
def execPlainIssue (s : State) : Host.Outcome State Fault Refusal := .next (s.onCore (issuePlain s.set))

/-- DEADLINE_EXPIRY (R181, R183). -/
def execDeadlineExpiry (s : State) : Host.Outcome State Fault Refusal :=
  .next (if deadlinePassed s.set s.core then s.onCore (recover s.set) else s)

/-- QUEUED_ERROR (R180). -/
def execQueuedError (tag : Fin 16) (lba : Option Nat) (s : State) : Host.Outcome State Fault Refusal :=
  .next (s.onCore (queuedErrored s.set tag.val lba))

/-- CATALOGUE_READ_COMPLETE (R8, R10). -/
def execCatalogueReadComplete (tag : Fin 16) (data : Sector) (s : State) : Host.Outcome State Fault Refusal :=
  .next (s.onCore (catalogueRead s.set tag.val data))

/-- CATALOGUE_WRITE_COMPLETE (R11). -/
def execCatalogueWriteComplete (tag : Fin 16) (s : State) : Host.Outcome State Fault Refusal :=
  .next (s.onCore (catalogueWritten s.set tag.val))

/-- READ_PIECE_COMPLETE (R139). -/
def execReadPieceComplete (tag : Fin 16) (data : List Sector) (s : State) : Host.Outcome State Fault Refusal :=
  .next (s.onCore (readPieceEnds tag.val data))

/-- MERGE_READ_COMPLETE (R141). -/
def execMergeReadComplete (tag : Fin 16) (data : List Sector) (s : State) : Host.Outcome State Fault Refusal :=
  .next (s.onCore (mergeReadEnds tag.val data))

/-- WRITE_PIECE_COMPLETE (R140). -/
def execWritePieceComplete (tag : Fin 16) (s : State) : Host.Outcome State Fault Refusal :=
  .next (s.onCore (writePieceEnds tag.val))

/-- DRIVE_DISCARD_END: the drive discard ends with good status (R146); its error is QUEUED_ERROR. -/
def execDriveDiscardEnd (tag : Fin 16) (s : State) : Host.Outcome State Fault Refusal :=
  .next (s.onCore (driveDiscardEnds tag.val))

/-- DRIVE_FLUSH_END (R148). -/
def execDriveFlushEnd (r : DriveEnd) (s : State) : Host.Outcome State Fault Refusal := .next (s.onCore (flushEnds s.set r))

/-- PASS_END (R164). -/
def execPassEnd (r : DriveEnd) (data : List Sector) (s : State) : Host.Outcome State Fault Refusal :=
  .next (s.onCore (passEnds s.set r data))

/-- IDENTIFY_READ_END (R167). -/
def execIdentifyReadEnd (r : SectorEnd) (s : State) : Host.Outcome State Fault Refusal :=
  .next (s.onCore (identifyEnds s.set r))

/-! ### The part's own steps -/

/-- RESOLUTION_START (R58). -/
def execResolutionStart (s : State) : Host.Outcome State Fault Refusal :=
  .next (s.onCore fun c => pump s.set (startResolution s.set c))

/-- The slot request in WAITING-SLOT is answered again when a slot can be chosen (R92). -/
def slotWake (g : Settings) (c : Core) : Core :=
  match c.rsv.current.map Resolution.phase with
  | some (.slotWait i) => if c.kst.hasRoom then slotsFrom g i c else c
  | _ => c

/-- SLOT_WAKE. -/
def execSlotWake (s : State) : Host.Outcome State Fault Refusal := .next (s.onCore fun c => pump s.set (slotWake s.set c))

/-- KEY_LOAD_REREAD (R94). -/
def execKeyLoadReread (slot : Fin 24) (s : State) : Host.Outcome State Fault Refusal :=
  .next (s.onCore fun c => pump s.set (rereadKey slot.val c))

/-- The first waiting lock request that can enter the list enters it, and its holder reads the sector (R14). -/
def lockEnters (c : Core) : Core :=
  match c.ctp.lockWait.find? fun w => canEnter w.sector c with
  | none => c
  | some w =>
    let c := c.onCtp fun p => { p with lockWait := p.lockWait.erase w }
    match w.holder, w.sector with
    | .resolver, .desc t => flagLocked t c
    | _, _ => takeRead w.sector .request (enterLock w.sector .request c)

/-- LOCK_ENTRY. -/
def execLockEntry (s : State) : Host.Outcome State Fault Refusal := .next (s.onCore fun c => pump s.set (lockEnters c))

/-- The WAITING-RANGE entry of a tag, when its blocker set is empty (R133). -/
def admissible (tag : CmdTag) (c : Core) : Option TxEntry :=
  c.txe.list.find? fun e => decide (e.tag = tag) && decide (e.state = .waitingRange) && e.blockers.isEmpty

/-- Move admission of the command of a tag. -/
def moveAdmitted (g : Settings) (tag : CmdTag) (c : Core) : Core :=
  match admissible tag c with
  | some e => admitEntry g e c
  | none => c

/-- MOVE_ADMISSION (R133). -/
def execMoveAdmission (tag : CmdTag) (s : State) : Host.Outcome State Fault Refusal :=
  .next (s.onCore (moveAdmitted s.set tag))

/-- FLUSH_ISSUE (R147). -/
def execFlushIssue (s : State) : Host.Outcome State Fault Refusal := .next (s.onCore issueFlush)

/-- The drain of SEAL or DELETE ends when none of its commands is left (R34). -/
def drainEnds (g : Settings) (c : Core) : Core :=
  match c.mgw.job with
  | some j => if j.stage = .draining ∧ drained j.drain c = true then pump g (afterDrain g j c) else c
  | none => c

/-- DRAIN_END. -/
def execDrainEnd (s : State) : Host.Outcome State Fault Refusal := .next (s.onCore (drainEnds s.set))

/-- FORMAT's drain ends (R21). -/
def formatDrainEnds (g : Settings) (c : Core) : Core :=
  match c.mgw.job with
  | some j =>
    match j.req, j.stage with
    | .format p, .formatDrain => if drained j.drain c then pump g (formatDrained p j c) else c
    | _, _ => c
  | none => c

/-- FORMAT_DRAIN_END. -/
def execFormatDrainEnd (s : State) : Host.Outcome State Fault Refusal := .next (s.onCore (formatDrainEnds s.set))

/-- The detach wait ends when its context has no holder (R114). -/
def detachEnds (g : Settings) (c : Core) : Core :=
  match c.mgw.job with
  | some j => if j.stage = .detaching ∧ ctxHeld j.ctx c = false then pump g (afterDetach g j c) else c
  | none => c

/-- DETACH_WAIT_END. -/
def execDetachWaitEnd (s : State) : Host.Outcome State Fault Refusal := .next (s.onCore (detachEnds s.set))

end Sys2Proof.Machine
end

