-- ==== Sys2Proof/Machine/Frames.lean ====
section
/-! DEFINITION. The meanings of the recorder's frames and of the link's own events (chapter 7). -/

namespace Sys2Proof.Machine

/-- A frame with a built-in code arrives. -/
def frameArrives (code : BitVec 8) (tag : CmdTag) (feature : BitVec 16) (lba count : Nat) (s : State) : State :=
  s.onCore (arrive s.set { code := code, feature := feature, lba := lba, count := count, tag := tag })

/-- READ_PLAIN, 25h. -/
def execReadPlain (feature : BitVec 16) (lba count : Nat) (s : State) : Host.Outcome State Fault Refusal :=
  .next (frameArrives 0x25 .untagged feature lba count s)

/-- READ_QUEUED, 60h. -/
def execReadQueued (tag : Fin 16) (feature : BitVec 16) (lba count : Nat) (s : State) : Host.Outcome State Fault Refusal :=
  .next (frameArrives 0x60 (.tagged tag) feature lba count s)

/-- WRITE_PLAIN, 35h. -/
def execWritePlain (feature : BitVec 16) (lba count : Nat) (s : State) : Host.Outcome State Fault Refusal :=
  .next (frameArrives 0x35 .untagged feature lba count s)

/-- WRITE_QUEUED, 61h. -/
def execWriteQueued (tag : Fin 16) (feature : BitVec 16) (lba count : Nat) (s : State) : Host.Outcome State Fault Refusal :=
  .next (frameArrives 0x61 (.tagged tag) feature lba count s)

/-- DISCARD_PLAIN, 06h. -/
def execDiscardPlain (feature : BitVec 16) (lba count : Nat) (s : State) : Host.Outcome State Fault Refusal :=
  .next (frameArrives 0x06 .untagged feature lba count s)

/-- DISCARD_QUEUED, 64h. -/
def execDiscardQueued (tag : Fin 16) (feature : BitVec 16) (lba count : Nat) (s : State) : Host.Outcome State Fault Refusal :=
  .next (frameArrives 0x64 (.tagged tag) feature lba count s)

/-- FLUSH, 0EAh. -/
def execFlush (feature : BitVec 16) (lba count : Nat) (s : State) : Host.Outcome State Fault Refusal :=
  .next (frameArrives 0xEA .untagged feature lba count s)

/-- IDENTIFY, 0ECh. -/
def execIdentify (feature : BitVec 16) (lba count : Nat) (s : State) : Host.Outcome State Fault Refusal :=
  .next (frameArrives 0xEC .untagged feature lba count s)

/-- OTHER_COMMAND: any other code, of plain form. -/
def execOtherCommand (code : BitVec 8) (feature : BitVec 16) (lba count : Nat) (s : State) :
    Host.Outcome State Fault Refusal := .next (frameArrives code .untagged feature lba count s)

/-- LINK_DATA_DRAWN (R168). -/
def execLinkDataDrawn (data : List Sector) (s : State) : Host.Outcome State Fault Refusal :=
  .next (s.onCore (dataDrawn s.set data))

/-- LINK_DATA_DELIVERED (R168). -/
def execLinkDataDelivered (s : State) : Host.Outcome State Fault Refusal := .next (s.onCore dataDelivered)

/-- COMPLETION_SENT (R169). -/
def execCompletionSent (s : State) : Host.Outcome State Fault Refusal := .next (s.onCore completionSent)

/-- ARRIVAL_REFUSAL_SENT (R158). -/
def execArrivalRefusalSent (s : State) : Host.Outcome State Fault Refusal := .next (s.onCore (arrivalRefusalSent s.set))

end Sys2Proof.Machine
end

