-- ==== Sys2Proof/Machine/Requests.lean ====
section
/-! DEFINITION. The meanings of the management requests (Table 9-4), and of the other window commands: one definition
per row. Each takes the window command at the head of the MGW's list when it is the row's own, and otherwise leaves the
state as it is (assumption log 5). -/

namespace Sys2Proof.Machine

/-! ### Window commands that are no requests -/

/-- OPEN (R187, R188). -/
def execOpen (s : State) : Host.Outcome State Fault Refusal := .next (s.onCore (takeOpening s.set))

/-- WINDOW_READ (R187, R189). -/
def execWindowRead (s : State) : Host.Outcome State Fault Refusal := .next (s.onCore answerRead)

/-- WINDOW_WRITE_OTHER (R187, R188). -/
def execWindowWriteOther (s : State) : Host.Outcome State Fault Refusal := .next (s.onCore takeOther)

/-- UNKNOWN_REQUEST (R190). -/
def execUnknownRequest (s : State) : Host.Outcome State Fault Refusal := .next (takeUnknown s)

/-! ### Requests the MGW, the EVU and the OTP's owners carry out at once -/

/-- CLOSE (R194). -/
def doClose (s : State) : State := done [] (s.onCore fun c => c.onMgw fun m => { m with opened := false })

def execClose (s : State) : Host.Outcome State Fault Refusal := .next (takeRequest 0x01 (sized 0 fun _ => doClose) s)

/-- STATUS: the copy and the clearing of the flags it shows are one event (R199). -/
def doStatus (s : State) : State :=
  (done (statusResults s.set s.core) s).onCore (clearReported s.core.evu.flags)

def execStatus (s : State) : Host.Outcome State Fault Refusal := .next (takeRequest 0x02 (sized 0 fun _ => doStatus) s)

/-- The policy code of IDENT: FFh for none (Table 11-9). -/
def policyCode : Option Policy → Nat
  | none => 0xFF
  | some p => p.code

/-- The IDENT results (Tables 9-3 and 11-11), 64 bytes. Bytes 59 to 63, which Table 11-11 does not list, are 0 (DESIGN
CHOICE, assumption log 36). -/
def identResults (g : Settings) (c : Core) : List Byte :=
  let p := c.ctp.placement
  leBytes 2 0x0410 ++ leBytes 1 (flagCode g.otp.valid) ++ leBytes 1 c.ctp.state.code ++ leBytes 1 c.ctp.startUp.code ++
    leBytes 1 c.dlp.link.code ++ leBytes 1 (flagCode g.catalogueLock) ++ leBytes 1 (policyCode c.ctp.policy) ++
    leBytes 8 ((c.dlp.identity.map DriveIdentity.capacity).getD 0) ++
    leBytes 4 ((c.dlp.identity.map DriveIdentity.sectorSize).getD 0) ++ leBytes 4 p.auCount ++ leBytes 8 p.usable ++
    leBytes 8 p.base ++ leBytes 8 p.reported ++ leBytes 2 p.pages ++ leBytes 2 g.timeout ++ leBytes 2 4095 ++
    leBytes 2 1023 ++ leBytes 1 24 ++ leBytes 1 4 ++ leBytes 1 64 ++ leBytes 5 0

/-- IDENT (R195). -/
def doIdent (s : State) : State := done (identResults s.set s.core) s

def execIdent (s : State) : Host.Outcome State Fault Refusal := .next (takeRequest 0x03 (sized 0 fun _ => doIdent) s)

/-- LOCK (R196). -/
def doLock (s : State) : State := done [] { s with set := { s.set with catalogueLock := true } }

def execLock (s : State) : Host.Outcome State Fault Refusal := .next (takeRequest 0x06 (sized 0 fun _ => doLock) s)

/-! ### FORMAT and SET-POLICY -/

/-- The start-up results on which FORMAT is refused NOT-READY (R21). -/
def StartUpResult.noFormat (r : StartUpResult) : Bool :=
  decide (r = .unsuitable) || decide (r = .linkLost) || decide (r = .noKeys)

/-- FORMAT (R21). -/
def doFormat (p : Policy) : State → State :=
  unlessLocked fun s =>
    if s.core.ctp.startUp.noFormat then refuse .notReady s else beginLong (startFormat p) s

def execFormat (s : State) : Host.Outcome State Fault Refusal :=
  .next (takeRequest 0x04 (parsed 1 (fun _ => policyParam) doFormat) s)

/-- SET-POLICY (R24). -/
def doSetPolicy (p : Policy) : State → State :=
  unlessLocked (whenReady (beginLong (toWrite .writeHeader 0 (Job.start (.setPolicy p) .writeHeader))))

def execSetPolicy (s : State) : Host.Outcome State Fault Refusal :=
  .next (takeRequest 0x05 (parsed 1 (fun _ => policyParam) doSetPolicy) s)

/-! ### Catalogue edits and reads (chapter 2) -/

/-- Raises CLAMPED where a value is clamped (R193). -/
def noteClamp (clamped : Bool) (s : State) : State := s.onCore (raiseWhen s.set clamped .clamped)

/-- CREATE (R36): a RING's minutes are clamped with the parameter checks; a NEVER RECORDING under NEW is refused CLASS
once the catalogue is READY. -/
def doCreate (p : CreateParams) (s : State) : State :=
  let ring := decide (p.kind = .ring)
  let p' := if ring then { p with minutes := clampMinutes p.minutes } else p
  whenReady
    (fun s =>
      if p.share = false ∧ p.kind = .recording ∧ p.cls = .never then refuse .copyClass s
      else beginCheck .checkDesc 0 (.create p') s)
    (noteClamp (ring && decide (p'.minutes ≠ p.minutes)) s)

def execCreate (s : State) : Host.Outcome State Fault Refusal := .next (takeRequest 0x07 (parsed 16 createParam doCreate) s)

/-- A request that begins with a check of descriptor r. -/
def doDescRequest (req : Request) : State → State := whenReady (beginCheck .checkDesc 0 req)

/-- A request that begins with the pages of its range. -/
def doPageRequest (req : Request) : State → State :=
  whenReady fun s => beginCheck .checkPages (req.pages s.core.ctp.placement).1 req s

/-- ASSIGN (R39, R40). -/
def execAssign (s : State) : Host.Outcome State Fault Refusal := .next (takeRequest 0x08 (parsed 10 assignParam doDescRequest) s)

/-- UNASSIGN (R41). -/
def execUnassign (s : State) : Host.Outcome State Fault Refusal :=
  .next (takeRequest 0x09 (parsed 6 (fun p v => auRangeParam p 4096 v) fun r => doPageRequest (.unassign r.1 r.2)) s)

/-- SET-CLEAR (R42). -/
def execSetClear (s : State) : Host.Outcome State Fault Refusal :=
  .next (takeRequest 0x0A (parsed 6 (fun p v => auRangeParam p 4096 v) fun r => doPageRequest (.setClear r.1 r.2)) s)

/-- SET-AU-PROTECT (R43). -/
def execSetAuProtect (s : State) : Host.Outcome State Fault Refusal :=
  .next (takeRequest 0x0B (parsed 7 setAuProtectParam doPageRequest) s)

/-- SET-LOCKED (R44). -/
def execSetLocked (s : State) : Host.Outcome State Fault Refusal :=
  .next (takeRequest 0x0C (parsed 3 (fun _ => setLockedParam) doDescRequest) s)

/-- SEAL (R49). -/
def execSeal (s : State) : Host.Outcome State Fault Refusal :=
  .next (takeRequest 0x0D (parsed 2 (fun _ => regionParam) fun r => doDescRequest (.seal r)) s)

/-- UNSEAL (R50). -/
def execUnseal (s : State) : Host.Outcome State Fault Refusal :=
  .next (takeRequest 0x0E (parsed 2 (fun _ => regionParam) fun r => doDescRequest (.unseal r)) s)

/-- JOIN (R51): its check phase reads all 4,095 descriptors. -/
def doJoin (req : Request) : State → State := whenReady (beginCheck .checkAll 1 req)

def execJoin (s : State) : Host.Outcome State Fault Refusal :=
  .next (takeRequest 0x0F (parsed 4 (fun _ => joinParam) doJoin) s)

/-- DELETE (R53, R54). -/
def execDelete (s : State) : Host.Outcome State Fault Refusal :=
  .next (takeRequest 0x10 (parsed 2 (fun _ => regionParam) fun r => doDescRequest (.delete r)) s)

/-- PURGE (R56, R57). -/
def execPurge (s : State) : Host.Outcome State Fault Refusal :=
  .next (takeRequest 0x11 (parsed 2 (fun _ => regionParam) fun r => doDescRequest (.purge r)) s)

/-- SET-FLAGS (R45). -/
def execSetFlags (s : State) : Host.Outcome State Fault Refusal :=
  .next (takeRequest 0x12 (parsed 4 (fun _ => setFlagsParam) doDescRequest) s)

/-- READ-REGION (R47). -/
def execReadRegion (s : State) : Host.Outcome State Fault Refusal :=
  .next (takeRequest 0x13 (parsed 2 (fun _ => regionParam) fun r => doDescRequest (.readRegion r)) s)

/-- WRITE-AREA (R46): the parameter length is 4 plus the area's (R206). -/
def doWriteArea (_w : WinCmd) (v : Nat) (s : State) : State :=
  match writeAreaParam v with
  | some req => if field v 4 2 = 4 + param v 2 2 then doDescRequest req s else refuse .badParameter s
  | none => refuse .badParameter s

def execWriteArea (s : State) : Host.Outcome State Fault Refusal := .next (takeRequest 0x14 doWriteArea s)

/-- READ-MAP (R48). -/
def execReadMap (s : State) : Host.Outcome State Fault Refusal :=
  .next (takeRequest 0x15 (parsed 6 (fun p v => auRangeParam p 120 v) fun r => doPageRequest (.readMap r.1 r.2)) s)

/-! ### Rings and the protection clock (chapter 5) -/

/-- RING-ATTACH (R111). -/
def doRingAttach (q : Nat × Nat) : State → State :=
  whenReady fun s =>
    if (ringCtx q.2 s.core).isSome then refuse .badState s
    else if holdsRegion q.1 s.core then refuse .conflict s
    else beginCheck .checkDesc 0 (.ringAttach q.1 q.2) s

def execRingAttach (s : State) : Host.Outcome State Fault Refusal :=
  .next (takeRequest 0x16 (parsed 3 (fun _ => ringAttachParam) doRingAttach) s)

/-- Context `x` is ATTACHED. -/
def isAttached (x : Nat) (c : Core) : Bool := (ringCtx x c).any fun k => !k.detaching

/-- RING-DETACH (R113), in any catalogue state. -/
def doRingDetach (x : Nat) (s : State) : State :=
  if isAttached x s.core then beginLong (startDetach s.set x (Job.start (.ringDetach x) .detaching)) s
  else refuse .badState s

def execRingDetach (s : State) : Host.Outcome State Fault Refusal :=
  .next (takeRequest 0x17 (parsed 1 (fun _ => contextParam) doRingDetach) s)

/-- RING-RETENTION (R126): the clamp comes before the catalogue state. -/
def doRingRetention (q : Nat × Nat) (s : State) : State :=
  whenReady (beginCheck .checkDesc 0 (.ringRetention q.1 (clampMinutes q.2)))
    (noteClamp (decide (clampMinutes q.2 ≠ q.2)) s)

/-- RING-RETENTION's parameters. -/
def retentionParam (v : Nat) : Option (Nat × Nat) := if regionOk (param v 0 2) then some (param v 0 2, param v 2 2) else none

def execRingRetention (s : State) : Host.Outcome State Fault Refusal :=
  .next (takeRequest 0x18 (parsed 4 (fun _ => retentionParam) doRingRetention) s)

/-- RING-INFO (R128). -/
def doRingInfo (x : Nat) (s : State) : State := done (ringInfoResults s.set.clock (ringCtx x s.core)) s

def execRingInfo (s : State) : Host.Outcome State Fault Refusal :=
  .next (takeRequest 0x19 (parsed 1 (fun _ => contextParam) doRingInfo) s)

/-- RING-CHUNKS (R129). -/
def doRingChunks (v : Nat) (s : State) : State :=
  let x := param v 0 1
  let first := param v 2 2
  let count := param v 4 2
  if 4 ≤ x ∨ count = 0 ∨ 100 < count then refuse .badParameter s
  else
    match ringCtx x s.core with
    | none => refuse .badState s
    | some k =>
      if k.chunkCount < first + count then refuse .badParameter s else done (ringChunksResults k s.set.clock first count) s

def execRingChunks (s : State) : Host.Outcome State Fault Refusal := .next (takeRequest 0x1A (sized 6 doRingChunks) s)

/-- CLOCK-SET (R107). -/
def doClockSet (v : Nat) (s : State) : State :=
  let value := param v 0 4
  let s' := if value < s.set.clock then noteClamp true s else { s with set := { s.set with clock := value } }
  done (leBytes 4 s'.set.clock) s'

def execClockSet (s : State) : Host.Outcome State Fault Refusal := .next (takeRequest 0x1B (sized 4 doClockSet) s)

/-! ### Tables -/

/-- FLUSH-CACHE (R74). -/
def doFlushCache (scope : FlushScope) (s : State) : State :=
  done (leBytes 2 (countEntries scope.covers s.core))
    (s.onCore fun c => invalidate scope.covers (markFlushed scope c))

def execFlushCache (s : State) : Host.Outcome State Fault Refusal :=
  .next (takeRequest 0x1C (parsed 12 flushScopeParam doFlushCache) s)

/-- SET-WINDOW (R66). -/
def doSetWindow (q : Nat × FixedWindow) : State → State :=
  unlessLocked fun s => done [] { s with set := { s.set with windows := s.set.windows.set q.1 q.2 } }

def execSetWindow (s : State) : Host.Outcome State Fault Refusal :=
  .next (takeRequest 0x1D (parsed 12 (fun _ => windowParam) doSetWindow) s)

/-- SET-ADMISSION (R165). -/
def doSetAdmission (f : AdmissionForm) : State → State :=
  unlessLocked fun s => done []
    (match f with
      | .entry n e => { s with set := { s.set with admission := s.set.admission.set n e } }
      | .default a => { s with set := { s.set with defaultAction := a } })

def execSetAdmission (s : State) : Host.Outcome State Fault Refusal :=
  .next (takeRequest 0x1E (parsed 10 (fun _ => admissionParam) doSetAdmission) s)

/-- An admission entry as READ-ADMISSION reports it. -/
def AdmissionEntry.bytes (e : AdmissionEntry) : List Byte :=
  leBytes 1 (flagCode e.enable) ++ leBytes 1 e.action.code ++ leBytes 1 e.codeValue.toNat ++ leBytes 1 e.codeMask.toNat ++
    leBytes 2 e.featureValue.toNat ++ leBytes 2 e.featureMask.toNat

/-- READ-ADMISSION (R166). -/
def doReadAdmission (s : State) : State :=
  done (s.set.admission.flatMap AdmissionEntry.bytes ++ leBytes 1 s.set.defaultAction.code) s

def execReadAdmission (s : State) : Host.Outcome State Fault Refusal :=
  .next (takeRequest 0x1F (sized 0 fun _ => doReadAdmission) s)

/-- SET-TIMEOUT (R182). -/
def doSetTimeout (v : Nat) (s : State) : State :=
  let value := param v 0 2
  let taken := max 1 (min 60 value)
  done (leBytes 2 taken) (noteClamp (decide (taken ≠ value)) { s with set := { s.set with timeout := taken } })

def execSetTimeout (s : State) : Host.Outcome State Fault Refusal := .next (takeRequest 0x20 (sized 2 doSetTimeout) s)

/-- SET-EVENTS (R203). -/
def doSetEvents (q : BitVec 12 × LineMode) (s : State) : State :=
  done (leBytes 2 q.1.toNat ++ leBytes 1 q.2.code) (setEvents q.1 q.2 s)

def execSetEvents (s : State) : Host.Outcome State Fault Refusal :=
  .next (takeRequest 0x21 (parsed 3 (fun _ => eventsParam) doSetEvents) s)

/-- RESTART's request (R197): the MGW takes no further window command; the effect waits for the write's completion. -/
def doRestart (w : WinCmd) (v : Nat) (s : State) : State :=
  if field v 4 2 = 0 then done [] (s.onCore fun c => c.onMgw fun m => { m with restart := .waiting w.tag })
  else refuse .badParameter s

def execRestart (s : State) : Host.Outcome State Fault Refusal := .next (takeRequest 0x22 doRestart s)

end Sys2Proof.Machine
end

