-- ==== Sys2Proof/Machine/Resets.lean ====
section
/-! DEFINITION. The resets and the part's own signals: POWER_ON_RESET, RESET_N_RELEASE, RECORDER_LINK_RESET, TICK,
ATTN_PULSE_END, RESTART_EFFECT, SLOT_CLEAR_ALL. -/

namespace Sys2Proof.Machine

/-! ### What a recorder-link reset abandons -/

/-- An access that a reset ends before its issue leaves the queue and the CTP line. -/
def withdrawOwner (o : AccessOwner) (c : Core) : Core := withdrawAccesses (fun a => decide (a.owner = o)) c

/-- Whether an access of an owner has been issued to the drive. -/
def ownerIssued (o : AccessOwner) (c : Core) : Bool := (tableAccesses c.dlp).any fun a => decide (a.owner = o)

/-- An issued access changes hands. -/
def passOn (o o' : AccessOwner) (c : Core) : Core :=
  mapIssued (fun a => if a.owner = o then { a with owner := o' } else a) c

/-- The lock of the flag update stays, with no command behind it, until its access ends (R14). -/
def orphanLock (c : Core) : Core :=
  c.onCtp fun p => { p with locks := p.locks.map fun l => if l.holder = .resolver then { l with holder := .orphan } else l }

/-- A flag update is abandoned: an access not yet issued is withdrawn and the lock released; an issued one keeps the lock
until it ends (R14). -/
def abandonFlag (c : Core) : Core :=
  if ownerIssued .flagUpdate c then
    orphanLock (mapIssued (fun a => if a.owner = .flagUpdate then
      { a with owner := if a.dir = .read then .orphanRead else .orphanWrite } else a) c)
  else dropResolverLock (withdrawOwner .flagUpdate c)

/-- A flag update whose lock request still waits withdraws it (R14). -/
def withdrawLockWait (c : Core) : Core :=
  c.onCtp fun p => { p with lockWait := p.lockWait.filter fun w => decide (w.holder ≠ .resolver) }

/-- The resolution queue is emptied and the resolution in progress abandoned (R60). A command abandoned in resolution is no
holder of its ring context from the reset on, also where a read or a write of it has been issued to the drive (R34 says so
of drains, R114 leaves it open for the detach wait; DESIGN CHOICE, assumption log 31). -/
def abandonResolutions (c : Core) : Core :=
  let segs := match c.rsv.current with
    | some r => r.segs
    | none => []
  let c := passOn .walk .discarded (withdrawOwner .walk c)
  let c := lowerGrants segs (withdrawLockWait (abandonFlag c))
  c.onRsv fun r => { r with queue := [], current := none }

/-- Whether an entry has a drive request outstanding. -/
def txInTable (id : Nat) (c : Core) : Bool :=
  c.dlp.table.any fun q => match q.body with
    | .transfer t => decide (t.id = id)
    | _ => false

/-- An entry of the transfer list meets a recorder-link reset (R153). -/
def abandonEntry (c : Core) (e : TxEntry) : Core :=
  if txInTable e.id c then
    updateTx e.id (fun e => { e with state := .abandoned, out := [], onLink := false, holds := [] }) c
  else leaveTransfer e c

/-- The transfer list and the FLUSH meet a recorder-link reset (R148, R153). The entries dropped are reported ended in list
order, which the spec leaves open (DESIGN CHOICE, assumption log 38). -/
def abandonTransfers (c : Core) : Core :=
  let c := c.txe.list.foldl abandonEntry (c.onDlp fun d => { d with txeLine := [] })
  c.onTxe fun t => { t with flush := .none }

/-- PLAIN requests lose their commands; a PASS or IDENTIFY not yet sent is withdrawn (R185). -/
def abandonPlain (c : Core) : Core :=
  c.onDlp fun d =>
    { d with
      plain := (d.plain.filter fun p => decide (p.kind = .flush)).map fun p => { p with live := false }
      table := d.table.map fun q => match q.body with
        | .plain p => { q with body := .plain { p with live := false } }
        | _ => q }

/-- The RLP's table and link list are emptied (R171). -/
def emptyLink (c : Core) : Core := c.onRlp fun _ => { table := [], linkList := [], held := [] }

/-- The window closes and drops the commands handed to it; a RESTART whose completion has not been sent goes with its
command (R186; assumption log 12). -/
def closeWindow (c : Core) : Core :=
  c.onMgw fun m =>
    { m with opened := false, inbox := [], restart := if m.restart = .sent then .sent else .none }

/-- The recorder-link reset, block by block (R14, R20, R60, R97, R148, R153, R171, R185, R186). The resolution's slots are
reported before those of the transfer list, by the model's choice (DESIGN CHOICE, assumption log 38). -/
def linkReset (g : Settings) (c : Core) : Core :=
  pump g (closeWindow (abandonPlain (abandonTransfers (abandonResolutions (emptyLink c)))))

/-- RECORDER_LINK_RESET. -/
def execRecorderLinkReset (s : State) : Host.Outcome State Fault Refusal := .next (s.onCore (linkReset s.set))

/-! ### RESTART -/

/-- The TXE's requests in the table are failed by RESTART: their ABANDONED entries leave (R155, R185). They fail in table
order, the order of issue, which the spec leaves open and which orders the slots they give back (DESIGN CHOICE, assumption
logs 35 and 38). -/
def failTransfers : Nat → Core → Core
  | 0, c => c
  | fuel + 1, c =>
    match c.dlp.table with
    | [] => c
    | q :: rest =>
      let c := c.onDlp fun d => { d with table := rest }
      failTransfers fuel (match q.body with
        | .transfer t => transferFailed t (fun _ => .driveTimeout) c
        | _ => c)

/-- Loads in flight end EMPTY, without KEY-LOST (R97). -/
def endLoads (k : Kst) : Kst :=
  { k with slots := k.slots.map fun s => if s.state = .loading then Slot.emptySlot else s, clearAll := true }

/-- The CTP after RESTART takes effect (R20). -/
def Ctp.restart (p : Ctp) : Ctp :=
  { p with state := .unknown, identity := none, policy := none, locks := [], lockWait := [], queue := [] }

/-- The EVU after RESTART takes effect: no flag, no record, no pulse (R198, R200, R201). -/
def clearedEvu : Evu := { flags := 0, pulseEnd := none, lastRefusal := none }

/-- The blocks when RESTART takes effect (R197). -/
def restartCore (g : Settings) (c : Core) : Core :=
  let c := abandonPlain (abandonTransfers (abandonResolutions (emptyLink c)))
  let c := failTransfers c.dlp.table.length c
  let c := (c.onKst endLoads).onCtp Ctp.restart
  let c := c.onRsv fun r => { r with cache := List.replicate 16 CacheSet.cleared }
  let c := c.onMgw fun _ => { opened := false, inbox := [], response := Response.blank, job := none, restart := .none }
  let c := c.onDlp fun d => { d with table := [], ctpLine := [], txeLine := [], plain := [] }
  startBringUp g (c.onEvu fun _ => clearedEvu)

/-- The event mask and the line mode that RESTART takes from OTP (R201). -/
def Settings.eventDefaults (g : Settings) : Settings :=
  { g with mask := if g.otp.valid then g.otp.mask else 0, lineMode := if g.otp.valid then g.otp.lineMode else .level }

/-- RESTART_EFFECT: once RESTART's completion has been sent. -/
def execRestartEffect (s : State) : Host.Outcome State Fault Refusal :=
  .next (if s.core.mgw.restart = .sent then
    { s with set := s.set.eventDefaults, core := restartCore s.set.eventDefaults s.core } else s)

/-- SLOT_CLEAR_ALL: after RESTART, once every use count is 0 (R97). -/
def execSlotClearAll (s : State) : Host.Outcome State Fault Refusal :=
  .next (if s.core.kst.clearAll && s.core.kst.idle && s.core.kst.slots.all (fun t => decide (t.state ≠ .loading)) then
    s.onCore fun c => c.onKst Kst.clearEvery else s)

/-! ### RESET_N, the tick and the pulse -/

/-- POWER_ON_RESET: every block takes its power-on state; the commands that wait still wait. -/
def execPowerOnReset (s : State) : Host.Outcome State Fault Refusal :=
  .next { s with set := Settings.powerOn s.set.otp, core := Core.powerOn s.set.otp }

/-- RESET_N_RELEASE: from DOWN, the start-up bring-up begins (R173, R175). -/
def execResetNRelease (s : State) : Host.Outcome State Fault Refusal :=
  .next (if s.core.dlp.link = .down then s.onCore (startBringUp s.set) else s)

/-- TICK (R106). -/
def execTick (s : State) : Host.Outcome State Fault Refusal :=
  .next { s with set := { s.set with clock := min (s.set.clock + 1) Config.clockMax } }

/-- ATTN_PULSE_END: the pulse has run its 1 ms (R202). -/
def execAttnPulseEnd (s : State) : Host.Outcome State Fault Refusal :=
  .next (match s.core.evu.pulseEnd with
    | some t => if t ≤ s.set.timer then s.onCore fun c => c.onEvu fun e => { e with pulseEnd := none } else s
    | none => s)

end Sys2Proof.Machine
end

