-- ==== Sys2Proof/Machine/Dispatch.lean ====
section
/-! DEFINITION. One arm per command: its meaning. -/

namespace Sys2Proof.Machine

def exec (i : Instr) (s : State) : Host.Outcome State Fault Refusal :=
  match i with
  | .powerOnReset => Sys2Proof.Machine.execPowerOnReset s
  | .resetNRelease => Sys2Proof.Machine.execResetNRelease s
  | .recorderLinkReset => Sys2Proof.Machine.execRecorderLinkReset s
  | .tick => Sys2Proof.Machine.execTick s
  | .attnPulseEnd => Sys2Proof.Machine.execAttnPulseEnd s
  | .readPlain feature lba count => Sys2Proof.Machine.execReadPlain feature lba count s
  | .readQueued tag feature lba count => Sys2Proof.Machine.execReadQueued tag feature lba count s
  | .writePlain feature lba count => Sys2Proof.Machine.execWritePlain feature lba count s
  | .writeQueued tag feature lba count => Sys2Proof.Machine.execWriteQueued tag feature lba count s
  | .discardPlain feature lba count => Sys2Proof.Machine.execDiscardPlain feature lba count s
  | .discardQueued tag feature lba count => Sys2Proof.Machine.execDiscardQueued tag feature lba count s
  | .flush feature lba count => Sys2Proof.Machine.execFlush feature lba count s
  | .identify feature lba count => Sys2Proof.Machine.execIdentify feature lba count s
  | .otherCommand code feature lba count => Sys2Proof.Machine.execOtherCommand code feature lba count s
  | .linkDataDrawn data => Sys2Proof.Machine.execLinkDataDrawn data s
  | .linkDataDelivered => Sys2Proof.Machine.execLinkDataDelivered s
  | .completionSent => Sys2Proof.Machine.execCompletionSent s
  | .arrivalRefusalSent => Sys2Proof.Machine.execArrivalRefusalSent s
  | .openWindow => Sys2Proof.Machine.execOpen s
  | .windowRead => Sys2Proof.Machine.execWindowRead s
  | .windowWriteOther => Sys2Proof.Machine.execWindowWriteOther s
  | .unknownRequest => Sys2Proof.Machine.execUnknownRequest s
  | .close => Sys2Proof.Machine.execClose s
  | .status => Sys2Proof.Machine.execStatus s
  | .ident => Sys2Proof.Machine.execIdent s
  | .format => Sys2Proof.Machine.execFormat s
  | .setPolicy => Sys2Proof.Machine.execSetPolicy s
  | .lock => Sys2Proof.Machine.execLock s
  | .create => Sys2Proof.Machine.execCreate s
  | .assign => Sys2Proof.Machine.execAssign s
  | .unassign => Sys2Proof.Machine.execUnassign s
  | .setClear => Sys2Proof.Machine.execSetClear s
  | .setAuProtect => Sys2Proof.Machine.execSetAuProtect s
  | .setLocked => Sys2Proof.Machine.execSetLocked s
  | .seal => Sys2Proof.Machine.execSeal s
  | .unseal => Sys2Proof.Machine.execUnseal s
  | .join => Sys2Proof.Machine.execJoin s
  | .delete => Sys2Proof.Machine.execDelete s
  | .purge => Sys2Proof.Machine.execPurge s
  | .setFlags => Sys2Proof.Machine.execSetFlags s
  | .readRegion => Sys2Proof.Machine.execReadRegion s
  | .writeArea => Sys2Proof.Machine.execWriteArea s
  | .readMap => Sys2Proof.Machine.execReadMap s
  | .ringAttach => Sys2Proof.Machine.execRingAttach s
  | .ringDetach => Sys2Proof.Machine.execRingDetach s
  | .ringRetention => Sys2Proof.Machine.execRingRetention s
  | .ringInfo => Sys2Proof.Machine.execRingInfo s
  | .ringChunks => Sys2Proof.Machine.execRingChunks s
  | .clockSet => Sys2Proof.Machine.execClockSet s
  | .flushCache => Sys2Proof.Machine.execFlushCache s
  | .setWindow => Sys2Proof.Machine.execSetWindow s
  | .setAdmission => Sys2Proof.Machine.execSetAdmission s
  | .readAdmission => Sys2Proof.Machine.execReadAdmission s
  | .setTimeout => Sys2Proof.Machine.execSetTimeout s
  | .setEvents => Sys2Proof.Machine.execSetEvents s
  | .restart => Sys2Proof.Machine.execRestart s
  | .restartEffect => Sys2Proof.Machine.execRestartEffect s
  | .slotClearAll => Sys2Proof.Machine.execSlotClearAll s
  | .driveReady => Sys2Proof.Machine.execDriveReady s
  | .readyLimitExpiry => Sys2Proof.Machine.execReadyLimitExpiry s
  | .identityReadEnd result => Sys2Proof.Machine.execIdentityReadEnd result s
  | .identityReadTimeout => Sys2Proof.Machine.execIdentityReadTimeout s
  | .tagGrant => Sys2Proof.Machine.execTagGrant s
  | .plainIssue => Sys2Proof.Machine.execPlainIssue s
  | .deadlineExpiry => Sys2Proof.Machine.execDeadlineExpiry s
  | .queuedError tag lba => Sys2Proof.Machine.execQueuedError tag lba s
  | .catalogueReadComplete tag data => Sys2Proof.Machine.execCatalogueReadComplete tag data s
  | .catalogueWriteComplete tag => Sys2Proof.Machine.execCatalogueWriteComplete tag s
  | .readPieceComplete tag data => Sys2Proof.Machine.execReadPieceComplete tag data s
  | .mergeReadComplete tag data => Sys2Proof.Machine.execMergeReadComplete tag data s
  | .writePieceComplete tag => Sys2Proof.Machine.execWritePieceComplete tag s
  | .driveDiscardEnd tag => Sys2Proof.Machine.execDriveDiscardEnd tag s
  | .driveFlushEnd result => Sys2Proof.Machine.execDriveFlushEnd result s
  | .passEnd result data => Sys2Proof.Machine.execPassEnd result data s
  | .identifyReadEnd result => Sys2Proof.Machine.execIdentifyReadEnd result s
  | .resolutionStart => Sys2Proof.Machine.execResolutionStart s
  | .slotWake => Sys2Proof.Machine.execSlotWake s
  | .keyLoadReread slot => Sys2Proof.Machine.execKeyLoadReread slot s
  | .lockEntry => Sys2Proof.Machine.execLockEntry s
  | .moveAdmission tag => Sys2Proof.Machine.execMoveAdmission tag s
  | .flushIssue => Sys2Proof.Machine.execFlushIssue s
  | .drainEnd => Sys2Proof.Machine.execDrainEnd s
  | .formatDrainEnd => Sys2Proof.Machine.execFormatDrainEnd s
  | .detachWaitEnd => Sys2Proof.Machine.execDetachWaitEnd s

end Sys2Proof.Machine
end

