-- ==== Sys2Proof/Machine/Step.lean ====
section
/-! DEFINITION. The step: the command at the front of the queue, and a REFCLK cycle when none waits. -/

namespace Sys2Proof.Machine

/-- With no command waiting, a cycle of REFCLK passes: the timer that the drive deadlines, the ready limit and the ATTN
pulse are measured with counts one (R181; DESIGN CHOICE, assumption log 1). -/
def State.idle (s : State) : State := { s with set := { s.set with timer := s.set.timer + 1 } }

/-- One step. -/
def step (s : State) : Host.Outcome State Fault Refusal :=
  match s.pending with
  | [] => .next s.idle
  | i :: rest => exec i { s with pending := rest }

/-- The state with the command a word spells put at the front of its queue; no word spells one. -/
def State.withFetchWord (s : State) (nbits w : Nat) : State :=
  match decodeTableWord nbits w with
  | some i => { s with pending := i :: s.pending }
  | none => s

end Sys2Proof.Machine
end

