-- ==== Sys2Proof/Safety.lean ====
section
/-! DEFINITION. What a good state of the EJ410 is, block by block: the laws the manual says always hold of its tables,
queues and counters. Each is a property of plain data; that every step keeps it is a statement for the provers. -/

namespace Sys2Proof.Machine

/-! ### Recorder link (R157) -/

/-- Whether a command table entry holds a tagged command. -/
def CmdEntry.isTagged (e : CmdEntry) : Bool := decide (e.tag ≠ .untagged)

/-- The command table never holds two commands with one tag, more than 16 tagged commands, or a tagged and an untagged
command together (R157). -/
def CommandTableOk (r : Rlp) : Prop :=
  (r.table.map CmdEntry.tag).Nodup ∧ r.table.countP CmdEntry.isTagged ≤ 16 ∧
    ∀ e ∈ r.table, ∀ e' ∈ r.table, e.tag = .untagged → e'.tag = .untagged

/-! ### Drive link (R176, R178) -/

/-- The drive request table holds at most 16 requests, each under a drive tag of its own, at most 2 of them the CTP's, and
a PLAIN request stands alone (R176, Table 8-3). -/
def DriveTableOk (d : Dlp) : Prop :=
  d.table.length ≤ 16 ∧ (d.table.map DriveReq.tag).Nodup ∧ (∀ q ∈ d.table, q.tag < 16) ∧ ctpHeld d ≤ 2 ∧
    ∀ q ∈ d.table, q.isPlain = true → d.table.length = 1

/-! ### Catalogue Port (R14) -/

/-- The sector lock list holds at most 2 entries, and no sector twice (R14). -/
def LockListOk (p : Ctp) : Prop := p.locks.length ≤ 2 ∧ (p.locks.map Lock.sector).Nodup

/-! ### Key Store (R90, R92) -/

/-- The record a slot serves: that of a LOADING or a READY slot (Table 4-2). -/
def Slot.serves (s : Slot) : Option Nat :=
  match s.state with
  | .loading | .ready => s.record
  | _ => none

/-- The fields a slot has in each state (Table 4-2). -/
def Slot.shapeOk (s : Slot) : Bool :=
  match s.state with
  | .empty => s.record.isNone && s.key.isNone && decide (s.use = 0)
  | .loading => s.record.isSome && s.key.isNone && decide (s.use = 0)
  | .ready => s.record.isSome && s.key.isSome
  | .clearing => s.record.isNone && s.key.isSome && decide (1 ≤ s.use)

/-- The 24 slots are as Table 4-2 gives, no record is served by two of them, and the reuse list holds each READY slot of
use count 0 once and nothing else (R90, R92). -/
def SlotsOk (k : Kst) : Prop :=
  k.slots.length = 24 ∧ (∀ i < 24, (k.slot i).shapeOk = true) ∧
    (∀ i < 24, ∀ j < 24, (k.slot i).serves.isSome = true → (k.slot i).serves = (k.slot j).serves → i = j) ∧
    k.reuse.Nodup ∧ (∀ i ∈ k.reuse, i < 24) ∧
    ∀ i < 24, (i ∈ k.reuse ↔ (k.slot i).state = .ready ∧ (k.slot i).use = 0)

/-! ### Transfer Engine (R130, R132) -/

/-- The transfer commands the part carries, from the resolution queue to the transfer list. -/
def carried (c : Core) : List Nat :=
  c.rsv.queue.map Xfer.id ++ (c.rsv.current.toList.map fun r => r.cmd.id) ++ c.txe.list.map TxEntry.id

/-- An entry handed over later waits for the earlier one when the two conflict (R132). -/
def blockedBy (earlier later : TxEntry) : Prop :=
  conflicts later.kind earlier.kind later.compared earlier.compared = true → earlier.id ∈ later.blockers

/-- Every command is carried once; each entry of the transfer list waits for the earlier ones it conflicts with; a MOVING
entry waits for none (R132, R133). -/
def InterlockOk (c : Core) : Prop :=
  (carried c).Nodup ∧ (∀ i ∈ carried c, i < c.rsv.nextId) ∧ c.txe.list.Pairwise blockedBy ∧
    ∀ e ∈ c.txe.list, e.state = .moving → e.blockers = []

/-! ### Management Window (R191, R192) -/

/-- A long request is being carried out exactly while the response record shows IN-PROGRESS (R191). -/
def RequestOk (m : Mgw) : Prop := m.job.isSome = true ↔ m.response.status = .inProgress

/-! ### Settings (R64, R106, R163, R182) -/

/-- The protection clock is a 32-bit count, the timeout 1 .. 60 seconds, and the tables have their sizes. -/
def SettingsOk (g : Settings) : Prop :=
  g.clock ≤ Config.clockMax ∧ 1 ≤ g.timeout ∧ g.timeout ≤ 60 ∧ g.windows.length = 4 ∧ g.admission.length = 16 ∧
    g.otp.windows.length = 4 ∧ g.otp.admission.length = 16

/-! ### Ring Unit (R108, R109) -/

/-- A fill mark is at most 8,192 and a stamp no greater than the clock (R109). -/
def Chunk.ok (clock : Nat) : Chunk → Bool
  | .empty => true
  | .stamped s f => decide (s ≤ clock) && decide (f ≤ 8192)

/-- A context has as many chunk records as chunks, each of them good. -/
def RingCtx.ok (clock : Nat) (k : RingCtx) : Bool :=
  decide (k.chunks.length = k.chunkCount) && k.chunks.all (Chunk.ok clock)

/-- There are four contexts, all good, and the ring times that segments carry are times the clock has reached (R109). -/
def RingsOk (s : State) : Prop :=
  s.set.clock ≤ Config.clockMax ∧ s.core.rings.length = 4 ∧
    (∀ x ∈ s.core.rings, x.all (RingCtx.ok s.set.clock) = true) ∧
    ∀ e ∈ s.core.txe.list, ∀ p ∈ e.plan, p.ringTime.all (fun t => decide (t ≤ s.set.clock)) = true

/-! ### Region cache (R69) -/

/-- A set has 4 ways and a counter 0 .. 3, holds AUs of its own number mod 16, and no AU twice. -/
def CacheSet.ok (i : Nat) (s : CacheSet) : Prop :=
  s.ways.length = 4 ∧ s.counter < 4 ∧ (∀ w ∈ s.ways, w.all (fun e => decide (e.au % 16 = i)) = true) ∧
    (s.ways.filterMap fun w => w.map CacheEntry.au).Nodup

/-- The cache has 16 good sets, and a segment in resolution carries an entry of its own AU (R69, R70). -/
def CacheOk (r : Rsv) : Prop :=
  r.cache.length = 16 ∧ (∀ i < 16, (r.cache.getD i CacheSet.cleared).ok i) ∧
    ∀ v ∈ r.current, ∀ g ∈ v.segs, ∀ e ∈ g.entry, e.au = g.au

/-! ### The flag update in progress (R14, R82, R83) -/

/-- The outstanding accesses of the flag update. -/
def flagAccesses (c : Core) : List Access := (outstandingAccesses c).filter fun a => decide (a.owner = .flagUpdate)

/-- The flag update in progress serves the command in resolution. At most one access is its own, and at most one lock
request: the read, the write or the lock of the descriptor that the resolution waits for, and a write carries the flags of the
command's kind and a descriptor that has them (R14, R83). Each segment of a WRITE that resolved to a region is CIPHER, and
none has an entry before its walk ends (R59, R71, R82). -/
structure FlagUpdateOk (c : Core) : Prop where
  one : (flagAccesses c).length ≤ 1
  read : ∀ a ∈ flagAccesses c, a.dir = .read →
    ∃ r b, c.rsv.current = some r ∧ r.phase = .flagRead b ∧ a.sector = .desc b
  write : ∀ a ∈ flagAccesses c, ∀ data n, a.dir = .write data n →
    ∃ r b d, c.rsv.current = some r ∧ r.phase = .flagWrite b ∧ a.sector = .desc b ∧
      n = .flags b (decide (r.cmd.kind = .read)) (decide (r.cmd.kind = .write)) d ∧
      (r.cmd.kind = .read → d.played = true) ∧ (r.cmd.kind = .write → d.written = true)
  waits : c.ctp.lockWait.countP (fun w => decide (w.holder = .resolver)) ≤ 1
  lock : ∀ w ∈ c.ctp.lockWait, w.holder = .resolver →
    ∃ r b, c.rsv.current = some r ∧ r.phase = .flagLock b ∧ w.sector = .desc b
  settled : ∀ r, c.rsv.current = some r → r.cmd.kind = .write → ∀ g ∈ r.segs,
    (g.entry.bind CacheEntry.region).isSome = true → g.disp = some .cipher
  ahead : ∀ r i, c.rsv.current = some r → r.phase = .walking i → ∀ g ∈ r.segs.drop i, g.entry = none

/-! ### The whole part -/

/-- Every law above. -/
def StateOk (s : State) : Prop :=
  SettingsOk s.set ∧ CommandTableOk s.core.rlp ∧ DriveTableOk s.core.dlp ∧ LockListOk s.core.ctp ∧ SlotsOk s.core.kst ∧
    InterlockOk s.core ∧ RequestOk s.core.mgw ∧ RingsOk s ∧ CacheOk s.core.rsv ∧ FlagUpdateOk s.core

/-! ### Moments: what a statement about a command assumes of a state, and what it says of the next one -/

/-- The frame a recorder command brings (R156, Table 11-15). -/
def frameOfInstr : Instr → Option Frame
  | .readPlain f l n => some { code := 0x25, feature := f, lba := l, count := n, tag := .untagged }
  | .readQueued t f l n => some { code := 0x60, feature := f, lba := l, count := n, tag := .tagged t }
  | .writePlain f l n => some { code := 0x35, feature := f, lba := l, count := n, tag := .untagged }
  | .writeQueued t f l n => some { code := 0x61, feature := f, lba := l, count := n, tag := .tagged t }
  | .discardPlain f l n => some { code := 0x06, feature := f, lba := l, count := n, tag := .untagged }
  | .discardQueued t f l n => some { code := 0x64, feature := f, lba := l, count := n, tag := .tagged t }
  | .flush f l n => some { code := 0xEA, feature := f, lba := l, count := n, tag := .untagged }
  | .identify f l n => some { code := 0xEC, feature := f, lba := l, count := n, tag := .untagged }
  | .otherCommand c f l n => some { code := c, feature := f, lba := l, count := n, tag := .untagged }
  | _ => none

/-- The request code of a management request's row (Table 11-8). -/
def requestCode : Instr → Option Nat
  | .close => some 0x01 | .status => some 0x02 | .ident => some 0x03 | .format => some 0x04 | .setPolicy => some 0x05
  | .lock => some 0x06 | .create => some 0x07 | .assign => some 0x08 | .unassign => some 0x09 | .setClear => some 0x0A
  | .setAuProtect => some 0x0B | .setLocked => some 0x0C | .seal => some 0x0D | .unseal => some 0x0E | .join => some 0x0F
  | .delete => some 0x10 | .purge => some 0x11 | .setFlags => some 0x12 | .readRegion => some 0x13
  | .writeArea => some 0x14 | .readMap => some 0x15 | .ringAttach => some 0x16 | .ringDetach => some 0x17
  | .ringRetention => some 0x18 | .ringInfo => some 0x19 | .ringChunks => some 0x1A | .clockSet => some 0x1B
  | .flushCache => some 0x1C | .setWindow => some 0x1D | .setAdmission => some 0x1E | .readAdmission => some 0x1F
  | .setTimeout => some 0x20 | .setEvents => some 0x21 | .restart => some 0x22
  | _ => none

/-- The RLP takes a frame of this tag at once, and it passes the arrival checks (R158). -/
def Accepts (c : Core) (tag : CmdTag) : Prop :=
  linkHolds c = false ∧ c.rlp.held = [] ∧ arrivalRefusal c.rlp.table tag = none

/-- The command table entry of a command that has been routed. -/
def routedEntry (f : Frame) (h : Holder) : CmdEntry :=
  { tag := f.tag, kind := kindOf f.code, frame := f, holder := h, state := .routed, status := none }

/-- The command table entry of a command whose status has been handed over at screening. -/
def refusedEntry (f : Frame) (st : LinkStatus) : CmdEntry :=
  { tag := f.tag, kind := kindOf f.code, frame := f, holder := .csc, state := .statusHeld, status := some st }

/-- The parameter length of a request record (R206). -/
def WinCmd.paramLength (w : WinCmd) : Nat := field w.record 4 2

/-- The window command the MGW takes next is a request write with this code, no request is IN-PROGRESS, and the record
fits the sectors written (R190). -/
structure Fresh (c : Core) (code : Nat) (w : WinCmd) : Prop where
  head : nextWindow c = some (w, .request code)
  idle : c.mgw.response.status ≠ .inProgress
  law : RequestOk c.mgw
  fits : 8 + w.paramLength ≤ 512 * w.count

/-- The request write has been taken and the response record shows a status; the write's completion, GOOD, stands on the
link list behind all that was there (R190). -/
structure Shows (s t : State) (w : WinCmd) (code : Nat) (st : RespStatus) : Prop where
  response : t.core.mgw.response = { code := code, serial := field w.record 2 2, status := st }
  inbox : t.core.mgw.inbox = s.core.mgw.inbox.tail
  completion : s.core.rlp.linkList ++ [.completion w.tag .good] <+: t.core.rlp.linkList
  pending : t.pending = s.pending

/-- What a request that ends at once leaves as it was, but for what its own rule says: keys, rings, transfers,
the resolver, the catalogue side and the drive link, where accesses that wait may move on to the CTP line. -/
structure Calm (s t : State) : Prop where
  kst : t.core.kst = s.core.kst
  rings : t.core.rings = s.core.rings
  txe : t.core.txe = s.core.txe
  ctp : t.core.ctp = { s.core.ctp with queue := t.core.ctp.queue }
  dlp : t.core.dlp = { s.core.dlp with ctpLine := t.core.dlp.ctpLine }
  rsv : t.core.rsv = s.core.rsv

/-- The moments at which nothing but the request acts: the link is not LOST, or no catalogue access waits. -/
def CalmMoment (c : Core) : Prop := c.dlp.link ≠ .lost ∨ c.ctp.queue = []

/-- A long request is IN-PROGRESS at a stage, and its first catalogue read, of this sector, is asked for. -/
structure Begins (s t : State) (w : WinCmd) (code : Nat) (req : Request) (st : Stage) (x : CatSector) : Prop where
  shows : Shows s t w code .inProgress
  job : ∃ j, t.core.mgw.job = some j ∧ j.req = req ∧ j.stage = st
  access : ∃ a ∈ t.core.ctp.queue ++ t.core.dlp.ctpLine, a.sector = x ∧ a.dir = .read ∧ a.owner = .request
  set : t.set = s.set

/-- The request of the drive request table under a drive tag is this catalogue access. -/
def HoldsAccess (c : Core) (tag : Nat) (a : Access) : Prop := (findReq tag c).map DriveReq.body = some (.catalogue a)

/-- The request of the drive request table under a drive tag is this request of the TXE. -/
def HoldsTransfer (c : Core) (tag : Nat) (q : TxReq) : Prop := (findReq tag c).map DriveReq.body = some (.transfer q)

/-- The request in progress, `j`, reads a catalogue sector under a drive tag, and the sector the drive gives verifies as
this content (R8, R10). -/
structure JobReads (s : State) (tag : Nat) (data : Sector) (j : Job) (x : CatSector) (content : CatContent) : Prop where
  up : s.core.dlp.link ≠ .lost
  holds : ∃ a, HoldsAccess s.core tag a ∧ a.sector = x ∧ a.dir = .read ∧ a.owner = .request
  job : s.core.mgw.job = some j
  verifies : verifySector s.core.kst.keys s.core.ctp x data = some content

/-- The request in progress ends with this status of the response record, and REQUEST-DONE is raised (R191). -/
structure Ends (s t : State) (st : RespStatus) : Prop where
  job : t.core.mgw.job = none
  response : t.core.mgw.response = { s.core.mgw.response with status := st }
  event : EventFlag.requestDone.inWord t.core.evu.flags = true
  set : t.set = s.set

/-- The request in progress asks for one write, of this content with this change notice, under the lock it holds; nothing
else but the catalogue access queue and the CTP line changes (R11, R32). -/
structure Writes (s t : State) (x : CatSector) (content : CatContent) (n : Notice) : Prop where
  access : ∃ a ∈ t.core.ctp.queue ++ t.core.dlp.ctpLine, a.sector = x ∧ a.owner = .request ∧
    a.dir = .write (writtenSector s.core.kst.keys s.core.ctp x content) n
  locks : t.core.ctp.locks = s.core.ctp.locks
  response : t.core.mgw.response = s.core.mgw.response
  set : t.set = s.set
  evu : t.core.evu = s.core.evu
  rlp : t.core.rlp = s.core.rlp
  kst : t.core.kst = s.core.kst
  rings : t.core.rings = s.core.rings
  txe : t.core.txe = s.core.txe
  rsv : t.core.rsv = s.core.rsv

/-- Whether a map entry, descriptor, key record, page or header has only values its layout allows (Tables 11-1 to
11-5). -/
def MapEntry.wf : MapEntry → Bool
  | .region r _ => decide (1 ≤ r) && decide (r ≤ Config.maxRegion)
  | _ => true

def RingPart.wf (p : RingPart) : Bool :=
  decide (p.firstAu ≤ 131071) && decide (1 ≤ p.auCount) && decide (p.auCount ≤ 256) && decide (1 ≤ p.minutes) &&
    decide (p.minutes ≤ 1440)

def Desc.wf (d : Desc) : Bool :=
  (unitOf d.unit).isSome && decide (d.key ≤ Config.maxKey) && d.ring.all RingPart.wf &&
    d.forward.all (fun t => decide (1 ≤ t) && decide (t ≤ Config.maxRegion)) && decide (d.area.length ≤ 256) && d.consistent

def KeyRec.wf (k : KeyRec) : Bool :=
  (unitOf k.unit).isSome && decide (k.count ≤ 4095) && (k.live == decide (k.count ≠ 0)) && (k.live || decide (k.wrapped = 0))

/-- Content that belongs in a catalogue sector. -/
def CatContent.fits (x : CatSector) : CatContent → Bool
  | .header h => decide (x = .header) && decide (h.capacity < 2 ^ 64)
  | .page es => (match x with | .page p => decide (p < 2 ^ 16) | _ => false) && decide (es.length = Config.pageEntries) &&
      es.all MapEntry.wf
  | .desc d => (match x with | .desc _ => true | _ => false) && d.wf
  | .key k => (match x with | .key _ => true | _ => false) && k.wf

end Sys2Proof.Machine
end

