-- ==== Sys2Proof/Certificates/Slice0/Obligations.lean ====
section
/-! DEFINITION. The statements for the provers, chapter by chapter: what each command does, what each table always
holds, and that what the part writes it reads back. OBLIGATIONS.json lists them with the rules they rest on. -/

open Sys2Proof Sys2Proof.Machine

/-! ### The queue of commands -/

/-- A step runs the command at the front of the queue on the state with the rest: each row of the table is one whole,
indivisible step (spec/95_what_each_step_holds.md). That commands wait in a queue, and that on an empty one the part idles for
one cycle of REFCLK, is the model's choice (assumption log 1). -/
def Obligations.StepRunsFrontCommand : Prop :=
  (∀ (c : Instr) (rest : List Instr) (s : State), step { s with pending := c :: rest } = exec c { s with pending := rest }) ∧
    ∀ s : State, s.pending = [] → step s = .next { s with set := { s.set with timer := s.set.timer + 1 } }

/-- Every command completes, from every state, and leaves the commands that wait as they were: no rule stops the part. That
an event out of place completes too, with no effect, is the model's choice (assumption log 5), and so is the queue of
waiting commands (assumption log 1). -/
def Obligations.CommandsKeepQueue : Prop :=
  ∀ (c : Instr) (s : State), ∃ t, exec c s = .next t ∧ t.pending = s.pending

/-! ### Resets and the part's own signals -/

/-- POWER_ON_RESET gives every block its power-on state and takes the defaults from OTP (R20, R60, R64, R69, R90, R106,
R108, R130, R163, R172, R173, R182, R186, R191, R196, R198, R200, R201); the state right after reset is its own power-on
state. The timer starts at 0 by the model's
choice (assumption log 6). -/
def Obligations.PowerOnResetState : Prop :=
  exec .powerOnReset State.reset = .next State.reset ∧
    ∀ s : State, ∃ t, exec .powerOnReset s = .next t ∧ t.pending = s.pending ∧ t.set.otp = s.set.otp ∧ t.set.clock = 0 ∧
      t.set.catalogueLock = false ∧
      (s.set.otp.valid = true → t.set.windows = s.set.otp.windows ∧ t.set.admission = s.set.otp.admission ∧
        t.set.defaultAction = s.set.otp.defaultAction ∧ t.set.mask = s.set.otp.mask ∧ t.set.lineMode = s.set.otp.lineMode ∧
        t.set.timeout = max 1 (min 60 s.set.otp.timeout)) ∧
      (s.set.otp.valid = false → (∀ w ∈ t.set.windows, w.enable = false) ∧ (∀ e ∈ t.set.admission, e.enable = false) ∧
        t.set.defaultAction = .refuse ∧ t.set.mask = 0 ∧ t.set.lineMode = .level ∧ t.set.timeout = 8) ∧
      t.core.evu.flags = 0 ∧ t.core.evu.lastRefusal = none ∧ attnAsserted t.set t.core.evu = false ∧
      t.core.rlp.table = [] ∧ t.core.rlp.linkList = [] ∧ t.core.rsv.queue = [] ∧ t.core.rsv.current = none ∧
      (∀ x ∈ t.core.rsv.cache, x.counter = 0 ∧ ∀ w ∈ x.ways, w = none) ∧ t.core.ctp.state = .unknown ∧
      t.core.ctp.startUp = .cleared ∧ t.core.ctp.placement = Placement.zero ∧ t.core.ctp.identity = none ∧
      t.core.ctp.policy = none ∧ t.core.ctp.locks = [] ∧ t.core.ctp.queue = [] ∧
      (∀ x ∈ t.core.kst.slots, x.state = .empty ∧ x.record = none ∧ x.key = none ∧ x.use = 0) ∧ t.core.kst.reuse = [] ∧
      (∀ x < 4, ringCtx x t.core = none) ∧ t.core.txe.list = [] ∧ t.core.dlp.link = .down ∧ t.core.dlp.table = [] ∧
      t.core.dlp.identity = none ∧ t.core.dlp.attempts = 0 ∧ t.core.mgw.opened = false ∧ t.core.mgw.response.status = .none

/-- The state right after reset meets every law of Safety. The OTP contents it
starts from are the model's choice (assumption log 2). -/
def Obligations.ResetIsGood : Prop := StateOk State.reset

/-- RECORDER_LINK_RESET empties the RLP's table and link list, the resolution queue and the TXE line, abandons the
resolution and the transfers, closes the window, and keeps the settings, the cache's placement side and a request in
progress (R14, R60, R148, R153, R171, R185, R186, R191). -/
def Obligations.RecorderLinkResetAbandons : Prop :=
  ∀ s : State, ∃ t, exec .recorderLinkReset s = .next t ∧ t.set = s.set ∧ t.core.rlp.table = [] ∧
    t.core.rlp.linkList = [] ∧ t.core.rsv.queue = [] ∧ t.core.rsv.current = none ∧ t.core.txe.flush = .none ∧
    t.core.dlp.txeLine = [] ∧ t.core.mgw.opened = false ∧ (∀ e ∈ t.core.txe.list, e.state = .abandoned) ∧
    (∀ l ∈ t.core.ctp.locks, l.holder ≠ .resolver) ∧
    (s.core.dlp.link ≠ .lost → t.core.evu = s.core.evu ∧ t.core.rsv.cache = s.core.rsv.cache ∧
      t.core.rings = s.core.rings ∧ t.core.ctp.state = s.core.ctp.state ∧ t.core.ctp.placement = s.core.ctp.placement ∧
      t.core.mgw.response = s.core.mgw.response ∧ t.core.mgw.job = s.core.mgw.job ∧ t.core.dlp.link = s.core.dlp.link ∧
      t.core.dlp.identity = s.core.dlp.identity)

/-- RESET_N_RELEASE in DOWN begins the start-up bring-up, with the 10 second ready limit; DRIVE_READY sends the identity
read, timed by the drive request timeout (R173, R174, R175). That a ready report counts after its 10 seconds too, while
READY_LIMIT_EXPIRY has not come, is the model's choice (assumption log 34). -/
def Obligations.BringUpBegins : Prop :=
  (∀ s : State, s.core.dlp.link = .down → ∃ t, exec .resetNRelease s = .next t ∧
    t = { s with core := { s.core with dlp := { s.core.dlp with
            link := .bringUp, identity := none, attempts := 0, bring := .waitReady (s.set.timer + 250000000) } } }) ∧
    ∀ (s : State) (limit : Nat), s.core.dlp.bring = .waitReady limit →
      exec .driveReady s = .next { s with core := { s.core with dlp := { s.core.dlp with
        bring := .readIdentity (s.set.timer + s.set.timeout * 25000000) } } }

/-- A bring-up attempt fails when the ready limit passes, the identity read's deadline passes, or the identity read ends
with an error: the next attempt begins, and the third leaves the link LOST with DRIVE-LOST raised, DRIVE-ERROR as it was,
and every waiting request failed. The command of a MOVING transfer, of a live PLAIN request, and, where no flag write
waits beside it, of a walk, of a flag read or of a key load it began then completes DRIVE-TIMEOUT, and a management
request ends REFUSED(DRIVE), with nothing left in the lines. At start-up the check then ends LINK-LOST, ABSENT, with
placement figures 0 and START-UP raised (R18, R174, R175, R184). That a failed attempt raises no DRIVE-ERROR, for an
identity read in error either, is DEDUCED (assumption log 24). That an end in error counts as the end of the attempt after
its deadline too, while IDENTITY_READ_TIMEOUT has not come, is the model's choice (assumption log 34). -/
def Obligations.BringUpAttemptFails : Prop :=
  ∀ (c : Instr) (s : State),
    ((c = .readyLimitExpiry ∧ ∃ limit, s.core.dlp.bring = .waitReady limit ∧ limit ≤ s.set.timer) ∨
      (c = .identityReadTimeout ∧ ∃ d, s.core.dlp.bring = .readIdentity d ∧ d ≤ s.set.timer) ∨
      (∃ lba d, c = .identityReadEnd (.error lba) ∧ s.core.dlp.bring = .readIdentity d)) →
    ∃ t, exec c s = .next t ∧ t.set = s.set ∧
      (s.core.dlp.attempts + 1 < 3 → t = { s with core := { s.core with dlp := { s.core.dlp with
        attempts := s.core.dlp.attempts + 1, bring := .waitReady (s.set.timer + 250000000) } } }) ∧
      (3 ≤ s.core.dlp.attempts + 1 → t.core.dlp.link = .lost ∧ t.core.dlp.bring = .idle ∧
        EventFlag.driveLost.inWord t.core.evu.flags = true ∧
        EventFlag.driveError.inWord t.core.evu.flags = EventFlag.driveError.inWord s.core.evu.flags ∧
        t.core.dlp.ctpLine = [] ∧ t.core.dlp.txeLine = [] ∧ t.core.dlp.plain = [] ∧
        (∀ q ∈ s.core.dlp.txeLine, ∀ e, findTx q.id s.core = some e → e.state = .moving →
          .completion e.tag .driveTimeout ∈ t.core.rlp.linkList) ∧
        (∀ p ∈ s.core.dlp.plain, p.live = true → .completion .untagged .driveTimeout ∈ t.core.rlp.linkList) ∧
        (∀ a ∈ s.core.dlp.ctpLine, a.owner = .request → s.core.mgw.job.isSome = true →
          t.core.mgw.job = none ∧ t.core.mgw.response = { s.core.mgw.response with status := .refused .drive }) ∧
        ((∀ b ∈ s.core.dlp.ctpLine, b.owner = .flagUpdate → b.dir = .read) →
          ∀ a ∈ s.core.dlp.ctpLine, a.dir = .read → ∀ r : Resolution, s.core.rsv.current = some r →
            (a.owner = .walk ∧ (∃ i, r.phase = .walking i) ∨ a.owner = .flagUpdate ∧ (∃ b, r.phase = .flagRead b) ∨
              ∃ i j, a.owner = .keyLoad j ∧ r.phase = .loadWait i j true ∧ (s.core.kst.slot j).state = .loading ∧
                (s.core.kst.slot j).record ≠ none ∧ (s.core.kst.slot j).parked = none) →
            t.core.rsv.current = none ∧ .completion r.cmd.tag .driveTimeout ∈ t.core.rlp.linkList) ∧
        (s.core.dlp.link = .bringUp → s.core.ctp.queue = [] → s.core.dlp.ctpLine = [] →
          t.core.ctp.state = .absent ∧ t.core.ctp.startUp = .linkLost ∧ t.core.ctp.placement = Placement.zero ∧
            EventFlag.startUp.inWord t.core.evu.flags = true))

/-- IDENTITY_READ_END with good status. At start-up the link is UP, the identity is held and the catalogue side goes on:
UNSUITABLE, NO-KEYS, or the placement figures of Table 1-1 and the header read (R1, R17 to R19, R175). In recovery the
identity must match the one held, or the attempt fails: the next begins, and the third leaves the link LOST with
DRIVE-LOST raised and nothing waiting (R183, R184). That an end counts after its deadline too, while IDENTITY_READ_TIMEOUT
has not come, is the model's choice (assumption log 34). -/
def Obligations.IdentityReadEndsAttempt : Prop :=
  ∀ (s : State) (d : Nat) (x : Sector), s.core.dlp.bring = .readIdentity d →
    ∃ t, exec (.identityReadEnd (.good x)) s = .next t ∧ t.set = s.set ∧
      (s.core.dlp.link = .bringUp → t.core.dlp.link = .up ∧ t.core.dlp.identity = some (identityFigures x) ∧
        t.core.dlp.attempts = 0 ∧ t.core.dlp.bring = .idle ∧
        let i := identityFigures x
        let u := min i.capacity (2 ^ 33)
        if i.sectorSize ≠ 512 ∨ u < 2 ^ 21 + 8192 then
          t.core.ctp.state = .absent ∧ t.core.ctp.startUp = .unsuitable ∧ t.core.ctp.placement.reported = 0 ∧
            EventFlag.startUp.inWord t.core.evu.flags = true
        else
          t.core.ctp.placement = { usable := u, base := u - 8192, reported := u - 8192,
                                   auCount := (u - 8192 + 65535) / 65536,
                                   pages := ((u - 8192 + 65535) / 65536 + 119) / 120 } ∧
            if s.core.kst.keys = none then
              t.core.ctp.state = .absent ∧ t.core.ctp.startUp = .noKeys ∧ EventFlag.startUp.inWord t.core.evu.flags = true
            else ∃ a ∈ t.core.ctp.queue ++ t.core.dlp.ctpLine, a.sector = .header ∧ a.dir = .read ∧ a.owner = .startUp) ∧
      (s.core.dlp.link = .recovery → s.core.dlp.identity = some (identityFigures x) →
        t = { s with core := { s.core with dlp := { s.core.dlp with link := .up, attempts := 0, bring := .idle } } }) ∧
      (s.core.dlp.link = .recovery → s.core.dlp.identity ≠ some (identityFigures x) →
        (s.core.dlp.attempts + 1 < 3 → t = { s with core := { s.core with dlp := { s.core.dlp with
          attempts := s.core.dlp.attempts + 1, bring := .waitReady (s.set.timer + 250000000) } } }) ∧
        (3 ≤ s.core.dlp.attempts + 1 → t.core.dlp.link = .lost ∧ t.core.dlp.bring = .idle ∧
          t.core.dlp.identity = s.core.dlp.identity ∧ EventFlag.driveLost.inWord t.core.evu.flags = true ∧
          t.core.dlp.ctpLine = [] ∧ t.core.dlp.txeLine = [] ∧ t.core.dlp.plain = []))

/-- TICK raises the protection clock by one, saturating, and POWER_ON_RESET sets it to 0; no other command lowers it, and
only CLOCK-SET and these change it (R106). -/
def Obligations.ClockNeverDecreases : Prop :=
  (∀ s : State, exec .tick s = .next { s with set := { s.set with clock := min (s.set.clock + 1) 4294967295 } }) ∧
    (∀ s : State, ∃ t, exec .powerOnReset s = .next t ∧ t.set.clock = 0) ∧
    ∀ (c : Instr) (s t : State), s.set.clock ≤ 4294967295 → c ≠ .powerOnReset → exec c s = .next t →
      s.set.clock ≤ t.set.clock ∧ t.set.clock ≤ 4294967295 ∧ (c ≠ .tick → c ≠ .clockSet → t.set.clock = s.set.clock)

/-- Raising a flag sets it and clears no other; in PULSE mode the line is asserted for 25,000 cycles of REFCLK from a
clear-to-set transition of an unmasked flag, and a flag that is set or masked gives no pulse. ATTN_PULSE_END ends the pulse
once its time has come, and not before (R198, R202). That an early ATTN_PULSE_END changes nothing is the model's choice
(assumption log 5). -/
def Obligations.FlagsPulse : Prop :=
  (∀ (s : State) (e : Nat), s.core.evu.pulseEnd = some e →
      (e ≤ s.set.timer → exec .attnPulseEnd s =
        .next { s with core := { s.core with evu := { s.core.evu with pulseEnd := none } } }) ∧
      (s.set.timer < e → exec .attnPulseEnd s = .next s)) ∧
  (∀ (g : Settings) (f f' : EventFlag) (e : Evu),
      f'.inWord (e.raise g f).flags = (f'.inWord e.flags || decide (f' = f)) ∧ (e.raise g f).lastRefusal = e.lastRefusal ∧
        (e.raise g f).pulseEnd =
          (if f.inWord e.flags = false ∧ g.lineMode = .pulse ∧ f.inWord g.mask = false then some (g.timer + 25000)
           else e.pulseEnd))

/-! ### The recorder link (chapter 7) -/

/-- READ_PLAIN, READ_QUEUED, WRITE_PLAIN and WRITE_QUEUED in the recorder's space: the command takes its entry, ROUTED to
the RSV, and joins the tail of the resolution queue with its start and count, a count field of 0 standing for 65,536
(R58, R157, R160); nothing else changes. -/
def Obligations.ReadWriteJoinsQueue : Prop :=
  ∀ (c : Instr) (f : Frame) (k : CmdKind) (s : State), frameOfInstr c = some f → kindOf f.code = k → k = .read ∨ k = .write →
    Accepts s.core f.tag → s.core.ctp.state ≠ .unknown →
    let n := if f.count = 0 then 65536 else f.count
    f.lba + n - 1 < s.core.ctp.placement.reported →
    ∃ t, exec c s = .next t ∧ t = { s with core := { s.core with
      rlp := { s.core.rlp with table := s.core.rlp.table ++ [routedEntry f .rsv] }
      rsv := { s.core.rsv with
        queue := s.core.rsv.queue ++ [{ id := s.core.rsv.nextId, tag := f.tag, kind := k, start := f.lba, count := n,
                                        ranges := [] }]
        nextId := s.core.rsv.nextId + 1 } } }

/-- A READ or WRITE that lies in the management window is handed to the MGW: a READ at once, a WRITE by a draw of all its
sectors (R160, R162). -/
def Obligations.WindowCommandsReachWindow : Prop :=
  ∀ (c : Instr) (f : Frame) (s : State), frameOfInstr c = some f → Accepts s.core f.tag → s.core.ctp.state ≠ .unknown →
    let n := if f.count = 0 then 65536 else f.count
    s.core.ctp.placement.reported ≤ f.lba → f.lba + n - 1 ≤ s.core.ctp.placement.reported + 15 →
    (kindOf f.code = .read → ∃ t, exec c s = .next t ∧ t = { s with core := { s.core with
      rlp := { s.core.rlp with table := s.core.rlp.table ++ [routedEntry f .mgw] }
      mgw := { s.core.mgw with inbox := s.core.mgw.inbox ++
        [{ tag := f.tag, write := false, start := f.lba, count := n, data := [] }] } } }) ∧
    (kindOf f.code = .write → ∃ t, exec c s = .next t ∧ t = { s with core := { s.core with
      rlp := { s.core.rlp with
        table := s.core.rlp.table ++ [routedEntry f .mgw]
        linkList := s.core.rlp.linkList ++ [.draw f.tag .windowWrite n] } } })

/-- The refusals at screening: NOT-READY for every kind in UNKNOWN; OUT-OF-RANGE for a READ or WRITE that is neither below
RC nor in the window, and for a DISCARD whose payload count is 0 or above 8. Each takes its entry, hands a completion to
the link list and writes the last-refusal record, and raises no event (R159, R160, R161, R170). -/
def Obligations.ScreeningRefuses : Prop :=
  ∀ (c : Instr) (f : Frame) (st : LinkStatus) (s : State), frameOfInstr c = some f → Accepts s.core f.tag →
    let n := if f.count = 0 then 65536 else f.count
    let rc := s.core.ctp.placement.reported
    (s.core.ctp.state = .unknown ∧ st = .refused .notReady) ∨
      (s.core.ctp.state ≠ .unknown ∧ st = .outOfRange ∧
        ((kindOf f.code = .read ∨ kindOf f.code = .write) ∧ rc ≤ f.lba + n - 1 ∧ (f.lba < rc ∨ rc + 15 < f.lba + n - 1) ∨
          kindOf f.code = .discard ∧ (f.count = 0 ∨ 8 < f.count))) →
    ∃ t, exec c s = .next t ∧ t = { s with core := { s.core with
      evu := { s.core.evu with lastRefusal := some { tag := f.tag, status := st, lba := f.lba } }
      rlp := { s.core.rlp with
        table := s.core.rlp.table ++ [refusedEntry f st]
        linkList := s.core.rlp.linkList ++ [.completion f.tag st] } } }

/-- DISCARD_PLAIN and DISCARD_QUEUED with a payload of 1 to 8 sectors draw it, still SCREENING, and the RLP takes no further
frame until it is complete. FLUSH waits at the TXE; IDENTIFY, and an OTHER_COMMAND that the admission table passes, wait at the DLP as PLAIN
requests, or in LOST complete DRIVE-TIMEOUT at once; an OTHER_COMMAND that the table refuses completes REFUSED(ADMISSION)
and raises ADMISSION-REFUSAL (R147, R161, R163, R164, R167, R184). -/
def Obligations.OtherKindsRouted : Prop :=
  (∀ (c : Instr) (f : Frame) (s : State), frameOfInstr c = some f → kindOf f.code = .discard → Accepts s.core f.tag →
      s.core.ctp.state ≠ .unknown → 1 ≤ f.count → f.count ≤ 8 →
      ∃ t, exec c s = .next t ∧ linkHolds t.core = true ∧ t = { s with core := { s.core with
        rlp := { s.core.rlp with
          table := s.core.rlp.table ++ [{ routedEntry f .csc with state := .screening }]
          linkList := s.core.rlp.linkList ++ [.draw f.tag .discardPayload f.count] } } }) ∧
  (∀ (c : Instr) (f : Frame) (s : State), frameOfInstr c = some f → Accepts s.core f.tag → s.core.ctp.state ≠ .unknown →
      (kindOf f.code = .flush → ∃ t, exec c s = .next t ∧ t = { s with core := { s.core with
        rlp := { s.core.rlp with table := s.core.rlp.table ++ [routedEntry f .txe] }
        txe := { s.core.txe with flush := .waiting } } }) ∧
      (∀ k, (kindOf f.code = .identify ∧ k = .identify ∨
          kindOf f.code = .other ∧ admissionAction s.set f = .pass ∧ k = .pass) →
        ∃ t, exec c s = .next t ∧
          (s.core.dlp.link ≠ .lost → t = { s with core := { s.core with
            rlp := { s.core.rlp with table := s.core.rlp.table ++ [routedEntry f .dlp] }
            dlp := { s.core.dlp with
              plain := s.core.dlp.plain ++ [{ kind := k, frame := some f, live := true, data := [] }] } } }) ∧
          (s.core.dlp.link = .lost → t = { s with core := { s.core with
            rlp := { s.core.rlp with
              table := s.core.rlp.table ++ [{ routedEntry f .dlp with state := .statusHeld, status := some .driveTimeout }]
              linkList := s.core.rlp.linkList ++ [.completion .untagged .driveTimeout] } } })) ∧
      (kindOf f.code = .other → admissionAction s.set f = .refuse →
        ∃ t, exec c s = .next t ∧ EventFlag.admissionRefusal.inWord t.core.evu.flags = true ∧
          t.core.evu.lastRefusal = some { tag := f.tag, status := .refused .admission, lba := f.lba } ∧
          t.set = s.set ∧ t.core = { s.core with
            evu := t.core.evu
            rlp := { s.core.rlp with
              table := s.core.rlp.table ++ [refusedEntry f (.refused .admission)]
              linkList := s.core.rlp.linkList ++ [.completion f.tag (.refused .admission)] } }))

/-- The arrival checks: a frame that may not enter the table is refused SEQUENCE or TAG-IN-USE, takes no entry, leaves the
commands there as they are, and holds the RLP until its completion has been sent; a frame that finds the RLP holding waits
on the link (R158). How held frames wait is the model's reading (assumption log 8). -/
def Obligations.ArrivalChecks : Prop :=
  ∀ (c : Instr) (f : Frame) (s : State), frameOfInstr c = some f →
    (linkHolds s.core = true ∨ s.core.rlp.held ≠ [] → exec c s = .next { s with core := { s.core with
      rlp := { s.core.rlp with held := s.core.rlp.held ++ [f] } } }) ∧
    ∀ st : LinkStatus, linkHolds s.core = false → s.core.rlp.held = [] →
      ((f.tag ≠ .untagged ∧ (∃ e ∈ s.core.rlp.table, e.tag = .untagged) ∧ st = .sequence) ∨
        (f.tag ≠ .untagged ∧ (∀ e ∈ s.core.rlp.table, e.tag ≠ .untagged) ∧ (∃ e ∈ s.core.rlp.table, e.tag = f.tag) ∧
          st = .tagInUse) ∨
        (f.tag = .untagged ∧ s.core.rlp.table ≠ [] ∧ st = .sequence)) →
      ∃ t, exec c s = .next t ∧ linkHolds t.core = true ∧ t = { s with core := { s.core with
        evu := { s.core.evu with lastRefusal := some { tag := f.tag, status := st, lba := f.lba } }
        rlp := { s.core.rlp with linkList := s.core.rlp.linkList ++ [.arrivalRefusal f.tag st] } } }

/-- The admission match: the lowest-numbered enabled entry that the command matches on the compared positions gives the
action, and the default action when none does (R163). -/
def Obligations.AdmissionMatch : Prop :=
  ∀ (g : Settings) (f : Frame),
    let hits (e : AdmissionEntry) : Prop := e.enable = true ∧
      (∀ b, e.codeMask.getLsbD b = true → f.code.getLsbD b = e.codeValue.getLsbD b) ∧
      ∀ b, e.featureMask.getLsbD b = true → f.feature.getLsbD b = e.featureValue.getLsbD b
    (∀ (n : Nat) (e : AdmissionEntry), g.admission[n]? = some e → hits e →
        (∀ (m : Nat) (e' : AdmissionEntry), m < n → g.admission[m]? = some e' → ¬hits e') →
      admissionAction g f = e.action) ∧
    ((∀ e ∈ g.admission, ¬hits e) → admissionAction g f = g.defaultAction)

/-- LINK_DATA_DRAWN with the sectors of the draw at the head of the link list. A window write goes to the MGW whole; a
DISCARD's payload, 64 range entries a sector, joins the resolution queue; with frames held, the RLP may then take them,
behind it (R161, R162, R168). The layout of a range entry is PRESUMED (assumption log 9). That the sectors of a live PASS
are kept with its request in the drive request table is the model's choice (assumption log 11). -/
def Obligations.DrawnDataReachesItsBlock : Prop :=
  ∀ (s : State) (data : List Sector) (rest : List Exchange) (tag : CmdTag) (f : Frame),
    (s.core.rlp.table.find? fun e => decide (e.tag = tag)).map CmdEntry.frame = some f →
    (s.core.rlp.linkList = .draw tag .windowWrite data.length :: rest →
      exec (.linkDataDrawn data) s = .next { s with core := { s.core with
        rlp := { s.core.rlp with linkList := rest }
        mgw := { s.core.mgw with inbox := s.core.mgw.inbox ++
          [{ tag := tag, write := true, start := f.lba, count := data.length, data := data }] } } }) ∧
    (s.core.rlp.linkList = .draw tag .discardPayload data.length :: rest → f.tag = tag →
      let x : Xfer :=
        { id := s.core.rsv.nextId
          tag := tag
          kind := .discard
          start := f.lba
          count := if f.count = 0 then 65536 else f.count
          ranges := data.flatMap fun x => (List.range 64).map fun i =>
            (x.toNat / 2 ^ (64 * i) % 2 ^ 48, x.toNat / 2 ^ (64 * i + 48) % 2 ^ 16) }
      ∃ t, exec (.linkDataDrawn data) s = .next t ∧ t.set = s.set ∧
        s.core.rsv.queue ++ [x] <+: t.core.rsv.queue ∧ rest <+: t.core.rlp.linkList ∧
        (s.core.rlp.held = [] → t.core = { s.core with
          rlp := { s.core.rlp with
            table := s.core.rlp.table.map fun e => if e.tag = tag then { e with holder := .rsv, state := .routed } else e
            linkList := rest }
          rsv := { s.core.rsv with queue := s.core.rsv.queue ++ [x], nextId := s.core.rsv.nextId + 1 } })) ∧
    ∀ (q : DriveReq) (p : PlainReq), s.core.rlp.linkList = .draw tag .pass data.length :: rest → s.core.dlp.table = [q] →
      q.body = .plain p → p.kind = .pass → p.live = true →
      exec (.linkDataDrawn data) s = .next { s with core := { s.core with
        rlp := { s.core.rlp with linkList := rest }
        dlp := { s.core.dlp with table := [{ q with body := .plain { p with data := p.data ++ data } }] } } }

/-- LINK_DATA_DRAWN for a write piece: the piece is gathered and asks the DLP for its tag. Its sectors are the recorder's
within the segment and those of the merge holds outside it, enciphered under the slot's key for a CIPHER segment; in LOST
the command completes DRIVE-TIMEOUT (R99, R138, R140, R142, R151). -/
def Obligations.DrawnPieceAsksForTag : Prop :=
  ∀ (s : State) (data : List Sector) (rest : List Exchange) (tag : CmdTag) (id : Nat) (e : TxEntry) (g : PlanSeg)
    (lba n a b : Nat) (is : List Item),
    s.core.rlp.linkList = .draw tag (.writePiece id) data.length :: rest → findTx id s.core = some e →
    e.plan[e.pos]? = some g → e.items = .piece lba n a b :: is →
    ∃ t, exec (.linkDataDrawn data) s = .next t ∧ t.set = s.set ∧
      (s.core.dlp.link ≠ .lost → t.core.rlp = { s.core.rlp with linkList := rest } ∧ t.core.kst = s.core.kst ∧
        ∃ d p : List Sector,
          t.core.dlp = { s.core.dlp with txeLine := s.core.dlp.txeLine ++
            [{ id := id, kind := .write, lba := lba, count := n, data := d, ranges := [] }] } ∧
          d = (if g.disp = .cipher then cipherRun false (s.core.kst.keyOf g.slot) g.unit lba p else p) ∧ p.length = n ∧
          ∀ i < n,
            (g.first ≤ lba + i ∧ lba + i ≤ g.last → p[i]? = some (data.getD (lba + i - max lba g.first) zeroSector)) ∧
            (¬(g.first ≤ lba + i ∧ lba + i ≤ g.last) → ∀ h, e.holds.find? (fun h => decide (h.1 = (lba + i) / 8)) = some h →
              p[i]? = some (h.2.getD ((lba + i) % 8) zeroSector))) ∧
      (s.core.dlp.link = .lost → t.core.rlp.linkList = rest ++ [.completion e.tag .driveTimeout] ∧
        ∀ e' ∈ t.core.txe.list, e'.id ≠ id)

/-- LINK_DATA_DELIVERED takes the delivery at the head off the link list, and the TXE then hands its command's next
sectors; COMPLETION_SENT frees the tag and, for RESTART's own completion, lets RESTART take effect; ARRIVAL_REFUSAL_SENT
lets the RLP take the frame that waits (R158, R168, R169, R172). -/
def Obligations.LinkExchangesServed : Prop :=
  (∀ (s : State) (tag : CmdTag) (src : DeliveryFrom) (data : List Sector) (rest : List Exchange),
    s.core.rlp.linkList = .delivery tag src data :: rest → (∀ id, src ≠ .transfer id) →
    exec .linkDataDelivered s = .next { s with core := { s.core with rlp := { s.core.rlp with linkList := rest } } }) ∧
  (∀ (s : State) (tag : CmdTag) (id : Nat) (data d : List Sector) (ds : List (List Sector)) (rest : List Exchange)
      (e : TxEntry),
    s.core.rlp.linkList = .delivery tag (.transfer id) data :: rest → findTx id s.core = some e → e.state = .moving →
    e.asked = false → e.out = d :: ds →
    ∃ t, exec .linkDataDelivered s = .next t ∧ t.set = s.set ∧
      rest ++ [.delivery e.tag (.transfer id) d] <+: t.core.rlp.linkList) ∧
  (∀ (s : State) (tag : CmdTag) (st : LinkStatus) (rest : List Exchange),
    s.core.rlp.linkList = .completion tag st :: rest →
    ∃ t, exec .completionSent s = .next t ∧ t = { s with core := { s.core with
      rlp := { s.core.rlp with
        table := s.core.rlp.table.filter fun e => decide (e.tag ≠ tag)
        linkList := rest }
      mgw := if s.core.mgw.restart = .waiting tag then { s.core.mgw with restart := .sent } else s.core.mgw } }) ∧
  (∀ (s : State) (tag : CmdTag) (st : LinkStatus) (rest : List Exchange),
    s.core.rlp.linkList = .arrivalRefusal tag st :: rest →
    let s' := { s with core := { s.core with rlp := { s.core.rlp with linkList := rest, held := [] } } }
    (s.core.rlp.held = [] → exec .arrivalRefusalSent s = .next s') ∧
    (∀ c f, frameOfInstr c = some f → s.core.rlp.held = [f] → linkHolds s'.core = false →
      exec .arrivalRefusalSent s = exec c s'))

/-! ### The management window (chapter 9) -/

/-- OPEN: an opening record that carries the mark and the window code opens the window, another is ignored, and one taken
in the OPEN window has no effect; the response record, the request in progress and the catalogue lock stay as they are.
WINDOW_WRITE_OTHER: a window write that is neither an opening record nor a request write is discarded. Both complete GOOD
(R187, R188). -/
def Obligations.WindowWritesTaken : Prop :=
  (∀ (s : State) (w : WinCmd), nextWindow s.core = some (w, .opening) →
      ∃ t, exec .openWindow s = .next t ∧ t = { s with core := { s.core with
        rlp := { s.core.rlp with
          table := s.core.rlp.table.map fun e =>
            if e.tag = w.tag then { e with state := .statusHeld, status := some .good } else e
          linkList := s.core.rlp.linkList ++ [.completion w.tag .good] }
        mgw := { s.core.mgw with
          inbox := s.core.mgw.inbox.tail
          opened := s.core.mgw.opened ||
            (decide (field w.record 0 8 = openingMark) &&
              decide (field w.record 8 8 = if s.set.otp.valid then s.set.otp.windowCode.toNat else 0)) } } }) ∧
  (∀ (s : State) (w : WinCmd), s.core.mgw.restart = .none → s.core.mgw.inbox.head? = some w → w.write = true →
      (w.start ≠ s.core.ctp.placement.reported ∨ (s.core.mgw.opened = false ∧ w.count ≠ 1) ∨ 8 < w.count) →
      ∃ t, exec .windowWriteOther s = .next t ∧ t = { s with core := { s.core with
        rlp := { s.core.rlp with
          table := s.core.rlp.table.map fun e =>
            if e.tag = w.tag then { e with state := .statusHeld, status := some .good } else e
          linkList := s.core.rlp.linkList ++ [.completion w.tag .good] }
        mgw := { s.core.mgw with inbox := s.core.mgw.inbox.tail } } })

/-- WINDOW_READ delivers N sectors and completes GOOD, and changes nothing else. From the OPEN window a read of 1 to 8
sectors at RC + 8 returns the response record, padded with zeros; every other read returns zero-filled sectors (R187,
R189). -/
def Obligations.WindowReadAnswered : Prop :=
  ∀ (s : State) (w : WinCmd), nextWindow s.core = some (w, .read) →
    ∃ t d, exec .windowRead s = .next t ∧ d.length = w.count ∧ t = { s with core := { s.core with
      rlp := { s.core.rlp with
        table := s.core.rlp.table.map fun e =>
          if e.tag = w.tag then { e with state := .statusHeld, status := some .good } else e
        linkList := s.core.rlp.linkList ++ [.delivery w.tag .window d, .completion w.tag .good] }
      mgw := { s.core.mgw with inbox := s.core.mgw.inbox.tail } } } ∧
      if s.core.mgw.opened = true ∧ w.start = s.core.ctp.placement.reported + 8 ∧ w.count ≤ 8 then
        ∀ b < 512 * w.count, BitVec.ofNat 8 (field (joined d) b 1) = s.core.mgw.response.bytes.getD b 0
      else ∀ x ∈ d, x = zeroSector

/-- UNKNOWN_REQUEST: a code that is none of Table 9-4, that of OPEN among them, leaves the record REFUSED(UNKNOWN-REQUEST)
with the code and serial as written. A record that overruns the sectors written leaves the record REFUSED(BAD-PARAMETER)
whatever its code, an unknown one too; so does a parameter length that is not the one Table 11-8 fixes for the request, or for
WRITE-AREA 4 plus the area length (R190, R194, R206). -/
def Obligations.ShapeAndCodeChecks : Prop :=
  (∀ (s : State) (w : WinCmd) (code : Nat), Fresh s.core code w → code = 0 ∨ 0x22 < code →
      ∃ t, exec .unknownRequest s = .next t ∧ Shows s t w code (.refused .unknownRequest) ∧ t.set = s.set ∧
        t.core.mgw.opened = s.core.mgw.opened ∧ t.core.mgw.job = none ∧
        (CalmMoment s.core → Calm s t ∧ t.core.evu = s.core.evu)) ∧
  (∀ (c : Instr) (code : Nat) (s : State) (w : WinCmd),
      requestCode c = some code ∨ (c = .unknownRequest ∧ (code = 0 ∨ 0x22 < code)) →
      nextWindow s.core = some (w, .request code) → s.core.mgw.response.status ≠ .inProgress → RequestOk s.core.mgw →
      512 * w.count < 8 + w.paramLength →
      ∃ t, exec c s = .next t ∧ Shows s t w code (.refused .badParameter) ∧ t.set = s.set) ∧
  (∀ (c : Instr) (code p : Nat) (s : State) (w : WinCmd),
      (c, code, p) ∈ ([(.close, 1, 0), (.status, 2, 0), (.ident, 3, 0), (.format, 4, 1), (.setPolicy, 5, 1), (.lock, 6, 0),
        (.create, 7, 16), (.assign, 8, 10), (.unassign, 9, 6), (.setClear, 10, 6), (.setAuProtect, 11, 7),
        (.setLocked, 12, 3), (.seal, 13, 2), (.unseal, 14, 2), (.join, 15, 4), (.delete, 16, 2), (.purge, 17, 2),
        (.setFlags, 18, 4), (.readRegion, 19, 2), (.writeArea, 20, 4 + field w.record 10 2), (.readMap, 21, 6),
        (.ringAttach, 22, 3), (.ringDetach, 23, 1), (.ringRetention, 24, 4), (.ringInfo, 25, 1), (.ringChunks, 26, 6),
        (.clockSet, 27, 4), (.flushCache, 28, 12), (.setWindow, 29, 12), (.setAdmission, 30, 10), (.readAdmission, 31, 0),
        (.setTimeout, 32, 2), (.setEvents, 33, 3), (.restart, 34, 0)] : List (Instr × Nat × Nat)) →
      nextWindow s.core = some (w, .request code) → s.core.mgw.response.status ≠ .inProgress → RequestOk s.core.mgw →
      w.paramLength ≠ p →
      ∃ t, exec c s = .next t ∧ Shows s t w code (.refused .badParameter) ∧ t.set = s.set)

/-- A request write taken while a request is IN-PROGRESS completes REFUSED(WINDOW-BUSY), whatever its code; it writes the
last-refusal record and leaves the response record, the request in progress, the settings and the event flags as they are
(R192). -/
def Obligations.BusyWindowRefuses : Prop :=
  ∀ (c : Instr) (code : Nat) (s : State) (w : WinCmd), requestCode c = some code ∨ (c = .unknownRequest ∧ (code = 0 ∨ 0x22 < code)) →
    nextWindow s.core = some (w, .request code) → s.core.mgw.response.status = .inProgress →
    ∃ t, exec c s = .next t ∧ t = { s with core := { s.core with
      evu := { s.core.evu with
        lastRefusal := some { tag := w.tag, status := .refused .windowBusy, lba := w.start } }
      rlp := { s.core.rlp with
        table := s.core.rlp.table.map fun e =>
          if e.tag = w.tag then { e with state := .statusHeld, status := some (.refused .windowBusy) } else e
        linkList := s.core.rlp.linkList ++ [.completion w.tag (.refused .windowBusy)] }
      mgw := { s.core.mgw with inbox := s.core.mgw.inbox.tail } } }

/-- CLOSE closes the window, and LOCK sets the catalogue lock, set already or not; each ends DONE at once with no results
and changes nothing else (R194, R196). -/
def Obligations.CloseAndLock : Prop :=
  ∀ (s : State) (w : WinCmd), w.paramLength = 0 →
    (Fresh s.core 0x01 w → ∃ t, exec .close s = .next t ∧ Shows s t w 0x01 (.done []) ∧ t.core.mgw.opened = false ∧
      t.set = s.set ∧ t.core.mgw.job = none ∧ (CalmMoment s.core → Calm s t ∧ t.core.evu = s.core.evu)) ∧
    (Fresh s.core 0x06 w → ∃ t, exec .lock s = .next t ∧ Shows s t w 0x06 (.done []) ∧
      t.set = { s.set with catalogueLock := true } ∧ t.core.mgw.opened = s.core.mgw.opened ∧ t.core.mgw.job = none ∧
      (CalmMoment s.core → Calm s t ∧ t.core.evu = s.core.evu))

/-- The catalogue lock is cleared by POWER_ON_RESET alone, and while it is set FORMAT, SET-POLICY, SET-WINDOW and
SET-ADMISSION with good parameters are refused LOCKED and change no setting (R196). -/
def Obligations.CatalogueLockHolds : Prop :=
  (∀ (c : Instr) (s t : State), s.set.catalogueLock = true → c ≠ .powerOnReset → exec c s = .next t →
    t.set.catalogueLock = true) ∧
  ∀ (s : State) (w : WinCmd), s.set.catalogueLock = true →
    (Fresh s.core 0x04 w → w.paramLength = 1 → field w.record 8 1 ≤ 1 →
      ∃ t, exec .format s = .next t ∧ Shows s t w 0x04 (.refused .locked) ∧ t.set = s.set) ∧
    (Fresh s.core 0x05 w → w.paramLength = 1 → field w.record 8 1 ≤ 1 →
      ∃ t, exec .setPolicy s = .next t ∧ Shows s t w 0x05 (.refused .locked) ∧ t.set = s.set) ∧
    (Fresh s.core 0x1D w → w.paramLength = 12 → (windowParam w.record).isSome = true →
      ∃ t, exec .setWindow s = .next t ∧ Shows s t w 0x1D (.refused .locked) ∧ t.set = s.set) ∧
    (Fresh s.core 0x1E w → w.paramLength = 10 → (admissionParam w.record).isSome = true →
      ∃ t, exec .setAdmission s = .next t ∧ Shows s t w 0x1E (.refused .locked) ∧ t.set = s.set)

/-- STATUS reports the flags, the mask, the line mode, the clock, the two states and the last-refusal record, bytes 12 to 23
zero where it is absent, and clears every flag it reports and no other (R199, Table 11-10). -/
def Obligations.StatusReportsAndClears : Prop :=
  ∀ (s : State) (w : WinCmd), Fresh s.core 0x02 w → w.paramLength = 0 →
    ∃ t res, exec .status s = .next t ∧ Shows s t w 0x02 (.done res) ∧ t.set = s.set ∧ res.length = 24 ∧
      res.take 12 = leBytes 2 s.core.evu.flags.toNat ++ leBytes 2 s.set.mask.toNat ++
        leBytes 1 (match s.set.lineMode with | .level => 0 | .pulse => 1) ++ leBytes 1 s.core.ctp.state.code ++
        leBytes 1 s.core.dlp.link.code ++ leBytes 1 (if s.core.evu.lastRefusal.isSome then 1 else 0) ++
        leBytes 4 s.set.clock ∧
      (∀ x, s.core.evu.lastRefusal = some x → (res.drop 12).take 3 = leBytes 1 (tagCode x.tag) ++ leBytes 1 x.status.code ++
        leBytes 1 x.status.reasonCode ∧ res.drop 16 = leBytes 8 x.lba) ∧
      (s.core.evu.lastRefusal = none → res.drop 12 = List.replicate 12 0) ∧
      (CalmMoment s.core → Calm s t ∧ t.core.evu = { s.core.evu with flags := 0 })

/-- IDENT reports the part, the catalogue and drive side, the placement figures and the fixed figures, 64 bytes in the
places of Table 11-11, and changes nothing (R195). -/
def Obligations.IdentReports : Prop :=
  ∀ (s : State) (w : WinCmd), Fresh s.core 0x03 w → w.paramLength = 0 →
    ∃ t res, exec .ident s = .next t ∧ Shows s t w 0x03 (.done res) ∧ t.set = s.set ∧ res.length = 64 ∧
      (∀ o n v, (o, n, v) ∈ ([(0, 2, 0x0410), (2, 1, if s.set.otp.valid then 1 else 0), (3, 1, s.core.ctp.state.code),
          (4, 1, s.core.ctp.startUp.code), (5, 1, s.core.dlp.link.code), (6, 1, if s.set.catalogueLock then 1 else 0),
          (7, 1, match s.core.ctp.policy with | none => 0xFF | some .clear => 0 | some .noAccess => 1),
          (8, 8, (s.core.dlp.identity.map DriveIdentity.capacity).getD 0),
          (16, 4, (s.core.dlp.identity.map DriveIdentity.sectorSize).getD 0), (20, 4, s.core.ctp.placement.auCount),
          (24, 8, s.core.ctp.placement.usable), (32, 8, s.core.ctp.placement.base), (40, 8, s.core.ctp.placement.reported),
          (48, 2, s.core.ctp.placement.pages), (50, 2, s.set.timeout), (52, 2, 4095), (54, 2, 1023), (56, 1, 24), (57, 1, 4),
          (58, 1, 64)] : List (Nat × Nat × Nat)) → (res.drop o).take n = leBytes n v) ∧
      t.core.mgw.opened = s.core.mgw.opened ∧ (CalmMoment s.core → Calm s t ∧ t.core.evu = s.core.evu)

/-- CLOCK-SET raises the protection clock to its value, or holds it and raises CLAMPED where the value is below; either way
it ends DONE with the clock, and leaves every chunk record as it is, in every catalogue state and under the catalogue lock
(R107). -/
def Obligations.ClockSetRaisesOnly : Prop :=
  ∀ (s : State) (w : WinCmd), Fresh s.core 0x1B w → w.paramLength = 4 →
    let v := field w.record 8 4
    let clock := if v < s.set.clock then s.set.clock else v
    ∃ t, exec .clockSet s = .next t ∧ Shows s t w 0x1B (.done (leBytes 4 clock)) ∧
      t.set = { s.set with clock := clock } ∧ (v < s.set.clock → EventFlag.clamped.inWord t.core.evu.flags = true) ∧
      (CalmMoment s.core → Calm s t ∧ (s.set.clock ≤ v → t.core.evu = s.core.evu))

/-- SET-TIMEOUT takes 1 to 60 seconds, clamping with CLAMPED, and gives the value taken; it changes no deadline of a
request in the table (R182). -/
def Obligations.SetTimeoutClamps : Prop :=
  ∀ (s : State) (w : WinCmd), Fresh s.core 0x20 w → w.paramLength = 2 →
    let v := field w.record 8 2
    let taken := if v = 0 then 1 else if 60 < v then 60 else v
    ∃ t, exec .setTimeout s = .next t ∧ Shows s t w 0x20 (.done (leBytes 2 taken)) ∧ t.set = { s.set with timeout := taken } ∧
      (taken ≠ v → EventFlag.clamped.inWord t.core.evu.flags = true) ∧
      (CalmMoment s.core → Calm s t ∧ (taken = v → t.core.evu = s.core.evu))

/-- SET-WINDOW replaces every field of one fixed window and leaves the others; its parameters out of range are refused
BAD-PARAMETER. SET-ADMISSION, in its two forms, replaces every field of one entry, or the default action, and its
parameters out of range are refused BAD-PARAMETER, under the catalogue lock too (R66, R165). -/
def Obligations.TablesReplaced : Prop :=
  (∀ (s : State) (w : WinCmd), Fresh s.core 0x1D w → w.paramLength = 12 →
      let n := field w.record 8 1
      let good := n ≤ 3 ∧ field w.record 9 1 ≤ 2 ∧ field w.record 10 1 ≤ 1 ∧ field w.record 12 4 ≤ 131071 ∧
        field w.record 16 4 ≤ 131071
      (good → s.set.catalogueLock = false → s.set.windows.length = 4 →
        ∃ t, exec .setWindow s = .next t ∧ Shows s t w 0x1D (.done []) ∧ (∃ ws, t.set = { s.set with windows := ws }) ∧
          (∃ x, t.set.windows[n]? = some x ∧ x.enable = decide (field w.record 10 1 = 1) ∧
            x.base.toNat = field w.record 12 4 ∧ x.mask.toNat = field w.record 16 4 ∧
            x.action = (match field w.record 9 1 with | 0 => .clear | 1 => .clearProtected | _ => .noAccess)) ∧
          (∀ m, m ≠ n → t.set.windows[m]? = s.set.windows[m]?) ∧ (CalmMoment s.core → Calm s t ∧ t.core.evu = s.core.evu)) ∧
      (¬good → ∃ t, exec .setWindow s = .next t ∧ Shows s t w 0x1D (.refused .badParameter) ∧ t.set = s.set)) ∧
  (∀ (s : State) (w : WinCmd), Fresh s.core 0x1E w → w.paramLength = 10 → s.set.catalogueLock = false →
      s.set.admission.length = 16 →
      let n := field w.record 9 1
      let action := if field w.record 11 1 = 0 then AdmissionAction.pass else .refuse
      (field w.record 8 1 = 0 → n < 16 → field w.record 10 1 ≤ 1 → field w.record 11 1 ≤ 1 →
        ∃ t, exec .setAdmission s = .next t ∧ Shows s t w 0x1E (.done []) ∧
          (∃ es, t.set = { s.set with admission := es }) ∧
          (∃ x, t.set.admission[n]? = some x ∧ x.enable = decide (field w.record 10 1 = 1) ∧ x.action = action ∧
            x.codeValue.toNat = field w.record 12 1 ∧ x.codeMask.toNat = field w.record 13 1 ∧
            x.featureValue.toNat = field w.record 14 2 ∧ x.featureMask.toNat = field w.record 16 2) ∧
          (∀ m, m ≠ n → t.set.admission[m]? = s.set.admission[m]?) ∧ (CalmMoment s.core → Calm s t ∧ t.core.evu = s.core.evu)) ∧
      (field w.record 8 1 = 1 → field w.record 11 1 ≤ 1 →
        ∃ t, exec .setAdmission s = .next t ∧ Shows s t w 0x1E (.done []) ∧ t.set = { s.set with defaultAction := action } ∧
          (CalmMoment s.core → Calm s t ∧ t.core.evu = s.core.evu))) ∧
  ∀ (s : State) (w : WinCmd), Fresh s.core 0x1E w → w.paramLength = 10 →
    1 < field w.record 8 1 ∨ 1 < field w.record 11 1 ∨
      field w.record 8 1 = 0 ∧ (15 < field w.record 9 1 ∨ 1 < field w.record 10 1) →
    ∃ t, exec .setAdmission s = .next t ∧ Shows s t w 0x1E (.refused .badParameter) ∧ t.set = s.set ∧
      (CalmMoment s.core → Calm s t ∧ t.core.evu = s.core.evu)

/-- READ-ADMISSION ends DONE at once with the 16 entries in ascending order, each with all six fields, and the default
action, under the catalogue lock or not, in any catalogue state; it changes nothing (R166). -/
def Obligations.ReadAdmissionReports : Prop :=
  ∀ (s : State) (w : WinCmd), Fresh s.core 0x1F w → w.paramLength = 0 → s.set.admission.length = 16 →
    ∃ t res, exec .readAdmission s = .next t ∧ Shows s t w 0x1F (.done res) ∧ t.set = s.set ∧ res.length = 129 ∧
      (∀ n e, s.set.admission[n]? = some e → (res.drop (8 * n)).take 8 =
        leBytes 1 (if e.enable then 1 else 0) ++ leBytes 1 (match e.action with | .pass => 0 | .refuse => 1) ++
          leBytes 1 e.codeValue.toNat ++ leBytes 1 e.codeMask.toNat ++ leBytes 2 e.featureValue.toNat ++
          leBytes 2 e.featureMask.toNat) ∧
      res.drop 128 = leBytes 1 (match s.set.defaultAction with | .pass => 0 | .refuse => 1) ∧
      t.core.mgw.opened = s.core.mgw.opened ∧ (CalmMoment s.core → Calm s t ∧ t.core.evu = s.core.evu)

/-- SET-EVENTS replaces the mask and the line mode and changes no flag. Into LEVEL a pulse under way ends, into PULSE from
LEVEL the line is released, and a PULSE mode kept lets the pulse run (R203). -/
def Obligations.SetEventsTakesEffect : Prop :=
  ∀ (s : State) (w : WinCmd), Fresh s.core 0x21 w → w.paramLength = 3 → field w.record 8 2 ≤ 4095 → field w.record 10 1 ≤ 1 →
    let mode := if field w.record 10 1 = 0 then LineMode.level else .pulse
    let mask := BitVec.ofNat 12 (field w.record 8 2)
    ∃ t, exec .setEvents s = .next t ∧
      Shows s t w 0x21 (.done (leBytes 2 (field w.record 8 2) ++ leBytes 1 (field w.record 10 1))) ∧
      t.set = { s.set with mask := mask, lineMode := mode } ∧
      (CalmMoment s.core → Calm s t ∧ t.core.evu = { s.core.evu with
          pulseEnd := if mode = .pulse ∧ s.set.lineMode = .pulse then s.core.evu.pulseEnd else none } ∧
        (mode = .level → attnAsserted t.set t.core.evu = decide (s.core.evu.flags &&& ~~~mask ≠ 0)) ∧
        (mode = .pulse → s.set.lineMode = .level → attnAsserted t.set t.core.evu = false))

/-- FLUSH-CACHE makes every valid entry of its scope invalid and no other, gives their number, leaves the replacement
counters, and marks the covered segments of the resolution in progress stale (R74). The segments that a REGION scope covers
by their walk are the model's reading, and not stated here. -/
def Obligations.FlushCacheInvalidates : Prop :=
  ∀ (s : State) (w : WinCmd) (scope : FlushScope), Fresh s.core 0x1C w → w.paramLength = 12 →
    (field w.record 8 1 = 0 ∧ scope = .all ∨
      field w.record 8 1 = 1 ∧ 1 ≤ field w.record 10 2 ∧ field w.record 10 2 ≤ 4095 ∧ scope = .region (field w.record 10 2) ∨
      field w.record 8 1 = 2 ∧ 1 ≤ field w.record 16 4 ∧ field w.record 16 4 ≤ 131072 ∧
        field w.record 12 4 + field w.record 16 4 - 1 < s.core.ctp.placement.auCount ∧
        scope = .aus (field w.record 12 4) (field w.record 16 4)) →
    let hit (e : CacheEntry) : Bool := match scope with
      | .all => true
      | .region r => e.region.any fun i => decide (i.region = r) || decide (i.forward = some r)
      | .aus a n => decide (a ≤ e.au) && decide (e.au < a + n)
    ∃ t, exec .flushCache s = .next t ∧ t.set = s.set ∧
      Shows s t w 0x1C (.done (leBytes 2 (s.core.rsv.cache.map fun x => x.ways.countP fun y => y.any hit).sum)) ∧
      (CalmMoment s.core → t.core.evu = s.core.evu ∧ t.core.kst = s.core.kst ∧ t.core.txe = s.core.txe ∧
        t.core.rings = s.core.rings ∧ t.core.rsv.queue = s.core.rsv.queue ∧
        t.core.rsv.cache = (s.core.rsv.cache.map fun x => { x with ways := x.ways.map (Option.filter fun e => !hit e) }) ∧
        ∀ v, t.core.rsv.current = some v → ∀ g ∈ v.segs,
          (scope = .all → g.stale = true) ∧ (∀ a n, scope = .aus a n → a ≤ g.au → g.au < a + n → g.stale = true) ∧
            ∀ r e, scope = .region r → g.entry = some e → hit e = true → g.stale = true)

/-! ### Rings (chapter 5) -/

/-- RING-INFO reports a context, or the zeros of Table 5-6 for a FREE one, with its live, expired and EMPTY chunks at the
clock, which add up to its chunks, and the smallest stamp of a live chunk, or none; RING-CHUNKS reports a run of chunks, 12
bytes each, an EMPTY one with state, fill and stamp 0. Neither changes a record. The bytes Table 11-8 marks ignored are not
stated (R128, R129). -/
def Obligations.RingReports : Prop :=
  (∀ (s : State) (w : WinCmd), Fresh s.core 0x19 w → w.paramLength = 1 → field w.record 8 1 < 4 →
    ∃ t res, exec .ringInfo s = .next t ∧ Shows s t w 0x19 (.done res) ∧ t.set = s.set ∧ res.length = 32 ∧
      (CalmMoment s.core → Calm s t ∧ t.core.evu = s.core.evu) ∧
      (res.drop 16).take 4 = leBytes 4 s.set.clock ∧
      (ringCtx (field w.record 8 1) s.core = none → res.take 10 = List.replicate 10 0 ∧
        (res.drop 12).take 4 = List.replicate 4 0 ∧ (res.drop 20).take 7 = List.replicate 7 0 ∧
        res.drop 28 = List.replicate 4 0) ∧
      ∀ k, ringCtx (field w.record 8 1) s.core = some k →
        let kept (st : Nat) : Prop := ¬(k.never = true ∧ k.limit ≤ s.set.clock - st)
        res.take 10 = leBytes 1 (if k.detaching then 2 else 1) ++ leBytes 1 (if k.never then 1 else 0) ++
          leBytes 2 k.region ++ leBytes 4 (k.first / 65536) ++ leBytes 2 k.chunkCount ∧
        (res.drop 12).take 4 = leBytes 4 k.limit ∧
        (∀ st f, .stamped st f ∈ k.chunks → kept st → (∀ st' f', .stamped st' f' ∈ k.chunks → kept st' → st ≤ st') →
          (res.drop 26).take 1 = [1] ∧ res.drop 28 = leBytes 4 st) ∧
        ((∀ st f, .stamped st f ∈ k.chunks → ¬kept st) → (res.drop 26).take 1 = [0] ∧ res.drop 28 = List.replicate 4 0) ∧
        ∃ live expired empty : Nat, live + expired + empty = k.chunks.length ∧
          (res.drop 20).take 6 = leBytes 2 live ++ leBytes 2 expired ++ leBytes 2 empty ∧
          empty = k.chunks.count .empty ∧ (k.never = false → expired = 0) ∧
          expired = k.chunks.countP (fun ch => match ch with
            | .stamped st _ => k.never && decide (k.limit ≤ s.set.clock - st)
            | .empty => false)) ∧
  ∀ (s : State) (w : WinCmd), Fresh s.core 0x1A w → w.paramLength = 6 →
    let x := field w.record 8 1
    let first := field w.record 10 2
    let n := field w.record 12 2
    (x < 4 → 1 ≤ n → n ≤ 100 → ∀ k, ringCtx x s.core = some k → first + n ≤ k.chunkCount →
      ∃ t res, exec .ringChunks s = .next t ∧ Shows s t w 0x1A (.done res) ∧ t.set = s.set ∧ res.length = 8 + 12 * n ∧
        (CalmMoment s.core → Calm s t ∧ t.core.evu = s.core.evu) ∧ res.take 6 = leBytes 4 s.set.clock ++ leBytes 2 n ∧
        ∀ i < n, ∃ r, (res.drop (8 + 12 * i)).take 12 = r ∧ r.take 2 = leBytes 2 (first + i) ∧
          (k.chunks[first + i]? = some .empty → (r.drop 2).take 1 = [0] ∧ (r.drop 4).take 2 = [0, 0] ∧
            r.drop 8 = [0, 0, 0, 0]) ∧
          ∀ st f, k.chunks[first + i]? = some (.stamped st f) → (r.drop 4).take 2 = leBytes 2 f ∧
            (r.drop 8) = leBytes 4 st ∧
            (r.drop 2).take 1 = leBytes 1 (if k.never = true ∧ k.limit ≤ s.set.clock - st then 2 else 1)) ∧
    (x < 4 → 1 ≤ n → n ≤ 100 → ringCtx x s.core = none →
      ∃ t, exec .ringChunks s = .next t ∧ Shows s t w 0x1A (.refused .badState) ∧ t.set = s.set)

/-- A ring READ shows only what its chunks hold: each DATA part of its part list lies in the segment, and each of its
sectors in a chunk that is stamped, not expired, and filled past it; the parts tile the segment, and no two neighbours are
of one kind (R117). That a chunk outside the ring reads EMPTY is DEDUCED (assumption log 17). -/
def Obligations.RingReadShowsOnlyLiveData : Prop :=
  ∀ (k : RingCtx) (t first count : Nat), 1 ≤ count →
    let ps := partList k t first count
    (∀ l, first ≤ l → l < first + count → ∃ p ∈ ps, p.first ≤ l ∧ l < p.first + p.count ∧
      (p.data = true ↔ ∃ st f, k.chunkAt (l / 8192) = .stamped st f ∧ l % 8192 < f ∧ (k.never = false ∨ t - st < k.limit))) ∧
    (∀ p ∈ ps, 1 ≤ p.count ∧ first ≤ p.first ∧ p.first + p.count ≤ first + count) ∧
    ps.IsChain fun p q => q.first = p.first + p.count ∧ q.data ≠ p.data

/-- A ring WRITE segment that completes changes the records of the chunks it covers by Table 5-4, taking the time and the
limit it carries, and no other record (R121). -/
def Obligations.RingWriteChangesChunks : Prop :=
  ∀ (k : RingCtx) (limit t first count n : Nat), 1 ≤ count → k.first % 8192 = 0 → n < k.chunks.length →
    let lo := k.first + 8192 * n
    let a := max first lo - lo
    let b := min (first + count) (lo + 8192) - lo
    let old := k.chunks.getD n .empty
    let new := (k.afterWrite limit t first count).chunks.getD n .empty
    (first + count ≤ lo ∨ lo + 8192 ≤ first → new = old) ∧
    (lo < first + count → first < lo + 8192 →
      (old = .empty → new = .stamped t (if a = 0 then b else 0)) ∧
      ∀ s f, old = .stamped s f →
        new = if k.never = true ∧ limit ≤ t - s then .stamped t (if a = 0 then b else 0)
              else if a = 0 then .stamped t b
              else if a ≤ f then .stamped s (max f b)
              else .stamped s f)

/-! ### RESTART -/

/-- RESTART ends DONE, and the MGW takes no further window command until its write's completion has been sent (that the
record reads DONE meanwhile is the model's choice, assumption log 12); a RESTART_EFFECT then empties the link and the transfers, closes the window, clears the response record, the flags and the
cache, takes the mask and the line mode from OTP, and begins the bring-up; the clock, the contexts, the catalogue lock, the
windows, the admission table and the timeout are kept. SLOT_CLEAR_ALL, once every use count is 0, clears every slot; the
moment of that row, after RESTART has marked it due, is DEDUCED (assumption log 23) (R20, R60, R97, R155, R172, R185, R197,
R198, R201). -/
def Obligations.RestartTakesEffect : Prop :=
  ((∀ (s : State) (w : WinCmd), Fresh s.core 0x22 w → w.paramLength = 0 →
      ∃ t, exec .restart s = .next t ∧ Shows s t w 0x22 (.done []) ∧ t.set = s.set ∧ t.core.mgw.restart = .waiting w.tag ∧
        nextWindow t.core = none) ∧
    ∀ s : State, s.core.mgw.restart = .sent → ∃ t, exec .restartEffect s = .next t ∧
      t.set = { s.set with
        mask := if s.set.otp.valid then s.set.otp.mask else 0
        lineMode := if s.set.otp.valid then s.set.otp.lineMode else .level } ∧
      t.core.evu = { flags := 0, pulseEnd := none, lastRefusal := none } ∧ t.core.rlp.table = [] ∧ t.core.rlp.linkList = [] ∧
      t.core.rsv.queue = [] ∧ t.core.rsv.current = none ∧ (∀ x ∈ t.core.rsv.cache, x = CacheSet.cleared) ∧
      t.core.ctp.state = .unknown ∧ t.core.ctp.locks = [] ∧ t.core.ctp.queue = [] ∧ t.core.ctp.identity = none ∧
      t.core.ctp.policy = none ∧ t.core.ctp.placement = s.core.ctp.placement ∧ t.core.ctp.startUp = s.core.ctp.startUp ∧
      t.core.txe.list = [] ∧ t.core.txe.flush = .none ∧
      t.core.rings = s.core.rings ∧ t.core.kst.keys = s.core.kst.keys ∧ t.core.kst.clearAll = true ∧
      (∀ x ∈ t.core.kst.slots, x.state ≠ .loading) ∧
      t.core.dlp = { link := .bringUp, identity := none, attempts := 0, bring := .waitReady (s.set.timer + 250000000),
                     table := [], ctpLine := [], txeLine := [], plain := [], passes := s.core.dlp.passes } ∧
      t.core.mgw = { opened := false, inbox := [], response := { code := 0, serial := 0, status := .none }, job := none,
                     restart := .none }) ∧
  (∀ s : State, s.core.kst.clearAll = true → (∀ x ∈ s.core.kst.slots, x.use = 0 ∧ x.state ≠ .loading) →
      ∃ t, exec .slotClearAll s = .next t ∧ t.set = s.set ∧ (∀ x ∈ t.core.kst.slots, x = Slot.emptySlot) ∧
        t.core.kst.slots.length = s.core.kst.slots.length ∧ t.core.kst.reuse = [] ∧ t.core.kst.keys = s.core.kst.keys ∧
        t.core.kst.lastKey = s.core.kst.lastKey ∧ t.core.kst.lastIdentity = s.core.kst.lastIdentity ∧
        t.core = { s.core with kst := t.core.kst })

/-! ### Long requests (chapters 1, 2 and 5) -/

/-- The requests that begin with a check of descriptor r: outside READY each is refused NOT-READY; in READY, on a link that is
not LOST, each becomes IN-PROGRESS, and the CTP is asked for the descriptor. CREATE takes a ring's retention minutes clamped
to 1 .. 1,440 with CLAMPED, and refuses a NEVER RECORDING under NEW CLASS at once; that it clamps before the catalogue state is
looked at is DEDUCED (assumption log 26). What the descriptor shows may refuse the request STATE, and an UNSEAL of a region
whose class is not FREE is refused CLASS (R28, R32, R36, R39, R44 to R47, R49, R50, R53, R56). -/
def Obligations.DescriptorRequestsBegin : Prop :=
  (∀ (c : Instr) (code p : Nat) (req : Request) (s : State) (w : WinCmd),
      let v := w.record
      let r := field v 8 2
      ((c, code, p, req) ∈ ([(.assign, 8, 10, .assign r (decide (field v 10 1 = 1)) (field v 12 4) (field v 16 2)),
          (.setLocked, 12, 3, .setLocked r (decide (field v 10 1 = 1))), (.seal, 13, 2, .seal r), (.unseal, 14, 2, .unseal r),
          (.delete, 16, 2, .delete r), (.purge, 17, 2, .purge r),
          (.setFlags, 18, 4, .setFlags r (decide (field v 10 1 = 1)) (decide (field v 11 1 = 1))),
          (.readRegion, 19, 2, .readRegion r),
          (.writeArea, 20, 4 + field v 10 2, .writeArea r (leBytes (field v 10 2) (field v 12 (field v 10 2))))] :
          List (Instr × Nat × Nat × Request))) →
      Fresh s.core code w → w.paramLength = p → 1 ≤ r → r ≤ 4095 →
      (c = .assign ∨ c = .setLocked ∨ c = .setFlags → field v 10 1 ≤ 1) → (c = .setFlags → field v 11 1 ≤ 1) →
      (c = .assign → 1 ≤ field v 16 2 ∧ field v 16 2 ≤ 4096 ∧
        field v 12 4 + field v 16 2 - 1 < s.core.ctp.placement.auCount) →
      (c = .writeArea → field v 10 2 ≤ 256) →
      (s.core.ctp.state ≠ .ready →
        ∃ t, exec c s = .next t ∧ Shows s t w code (.refused .notReady) ∧ t.core.mgw.job = none ∧ t.set = s.set) ∧
      (s.core.ctp.state = .ready → s.core.dlp.link ≠ .lost →
        ∃ t, exec c s = .next t ∧ Begins s t w code req .checkDesc (.desc r) ∧ t.core.evu = s.core.evu ∧
          t.core.kst = s.core.kst ∧ t.core.rings = s.core.rings ∧ t.core.txe = s.core.txe ∧ t.core.rsv = s.core.rsv)) ∧
  (∀ (s : State) (w : WinCmd) (p : CreateParams), Fresh s.core 7 w → w.paramLength = 16 →
      createParam s.core.ctp.placement w.record = some p →
      let m := if p.kind = .ring then (if p.minutes = 0 then 1 else if 1440 < p.minutes then 1440 else p.minutes) else p.minutes
      (s.core.ctp.state ≠ .ready →
        ∃ t, exec .create s = .next t ∧ Shows s t w 7 (.refused .notReady) ∧ t.core.mgw.job = none ∧ t.set = s.set) ∧
      (s.core.ctp.state = .ready → p.share = false ∧ p.kind = .recording ∧ p.cls = .never →
        ∃ t, exec .create s = .next t ∧ Shows s t w 7 (.refused .copyClass) ∧ t.set = s.set) ∧
      (s.core.ctp.state = .ready → s.core.dlp.link ≠ .lost → ¬(p.share = false ∧ p.kind = .recording ∧ p.cls = .never) →
        ∃ t, exec .create s = .next t ∧ Begins s t w 7 (.create { p with minutes := m }) .checkDesc (.desc p.region) ∧
          (m ≠ p.minutes → EventFlag.clamped.inWord t.core.evu.flags = true) ∧ (m = p.minutes → t.core.evu = s.core.evu) ∧
          t.core.kst = s.core.kst ∧ t.core.rings = s.core.rings ∧ t.core.txe = s.core.txe ∧ t.core.rsv = s.core.rsv)) ∧
  ∀ (s : State) (tag : Fin 16) (x : Sector) (j : Job) (r : Nat) (d : Desc) (why : Reason),
    JobReads s tag.val x j (.desc r) (.desc d) → j.stage = .checkDesc →
    (why = .badState ∧
        ((∃ p, j.req = .create p ∧ d.state ≠ .empty) ∨
          (∃ on a n, j.req = .assign r on a n ∧ (d.state ≠ .opened ∨ d.kind ≠ .recording)) ∨
          ((∃ on, j.req = .setLocked r on) ∨ (∃ p w, j.req = .setFlags r p w) ∨ ∃ bs, j.req = .writeArea r bs) ∧
            d.state ≠ .opened ∧ d.state ≠ .sealed ∨
          j.req = .seal r ∧ (d.state ≠ .opened ∨ d.kind ≠ .recording) ∨
          j.req = .unseal r ∧ (d.state ≠ .sealed ∨ d.kind ≠ .recording) ∨
          j.req = .delete r ∧ (d.state = .empty ∨ d.state = .retired ∨ (d.state = .opened ∨ d.state = .sealed) ∧ d.locked = true) ∨
          j.req = .purge r ∧ d.state ≠ .retired ∧ d.state ≠ .forward) ∨
      why = .copyClass ∧ j.req = .unseal r ∧ d.state = .sealed ∧ d.kind = .recording ∧ d.cls ≠ .free) →
    ∃ t, exec (.catalogueReadComplete tag x) s = .next t ∧ Ends s t (.refused why)

/-- UNASSIGN, SET-CLEAR, SET-AU-PROTECT and READ-MAP begin with the first map page of their range, and JOIN with the first
descriptor, in READY on a link that is not LOST; outside READY they are refused NOT-READY. What they and CREATE, ASSIGN and
PURGE read in the check phase may refuse them: a page with an entry that is not UNASSIGNED (CREATE, SET-CLEAR), a region an
entry names (ASSIGN, UNASSIGN), CREATE's key source, JOIN's two regions and any FORWARD descriptor, PURGE's recount and its
forward target. When a scan refuses is DEDUCED (assumption log 19) (R29 to R33, R36, R39, R41 to R43, R48, R51, R56, R57). -/
def Obligations.PageRequestsAndJoinBegin : Prop :=
  (∀ (s : State) (w : WinCmd),
    let v := w.record
    let a := field v 8 4
    let n := field v 12 2
    (∀ (c : Instr) (code p limit : Nat) (req : Request),
      (c, code, p, limit, req) ∈ ([(.unassign, 9, 6, 4096, .unassign a n), (.setClear, 10, 6, 4096, .setClear a n),
        (.setAuProtect, 11, 7, 4096, .setAuProtect a n (decide (field v 14 1 = 1))), (.readMap, 21, 6, 120, .readMap a n)] :
        List (Instr × Nat × Nat × Nat × Request)) →
      Fresh s.core code w → w.paramLength = p → 1 ≤ n → n ≤ limit → a + n - 1 < s.core.ctp.placement.auCount →
      (c = .setAuProtect → field v 14 1 ≤ 1) →
      (s.core.ctp.state ≠ .ready →
        ∃ t, exec c s = .next t ∧ Shows s t w code (.refused .notReady) ∧ t.core.mgw.job = none ∧ t.set = s.set) ∧
      (s.core.ctp.state = .ready → s.core.dlp.link ≠ .lost →
        ∃ t, exec c s = .next t ∧ Begins s t w code req .checkPages (.page (a / 120)) ∧ t.core.evu = s.core.evu ∧
          t.core.kst = s.core.kst ∧ t.core.rings = s.core.rings ∧ t.core.txe = s.core.txe ∧ t.core.rsv = s.core.rsv)) ∧
    (Fresh s.core 15 w → w.paramLength = 4 → 1 ≤ field v 8 2 → field v 8 2 ≤ 4095 → 1 ≤ field v 10 2 →
      field v 10 2 ≤ 4095 → field v 8 2 ≠ field v 10 2 →
      (s.core.ctp.state ≠ .ready →
        ∃ t, exec .join s = .next t ∧ Shows s t w 15 (.refused .notReady) ∧ t.core.mgw.job = none ∧ t.set = s.set) ∧
      (s.core.ctp.state = .ready → s.core.dlp.link ≠ .lost →
        ∃ t, exec .join s = .next t ∧ Begins s t w 15 (.join (field v 8 2) (field v 10 2)) .checkAll (.desc 1) ∧
          t.core.evu = s.core.evu ∧ t.core.kst = s.core.kst ∧ t.core.rings = s.core.rings ∧ t.core.txe = s.core.txe ∧
          t.core.rsv = s.core.rsv))) ∧
  (∀ (s : State) (tag : Fin 16) (x : Sector) (j : Job) (es : List MapEntry) (i : Nat) (e : MapEntry),
    JobReads s tag.val x j (.page j.index) (.page es) → j.stage = .checkPages → es[i]? = some e → e ≠ .unassigned →
    ((∃ p, j.req = .create p ∧ p.firstAu ≤ 120 * j.index + i ∧ 120 * j.index + i < p.firstAu + p.auCount) ∨
      ∃ a n, j.req = .setClear a n ∧ a ≤ 120 * j.index + i ∧ 120 * j.index + i < a + n) →
    ∃ t, exec (.catalogueReadComplete tag x) s = .next t ∧ Ends s t (.refused .conflict)) ∧
  (∀ (s : State) (tag : Fin 16) (x : Sector) (j : Job) (r : Nat) (d : Desc),
    JobReads s tag.val x j (.desc r) (.desc d) → j.stage = .checkNames →
    (∃ q on a n, j.req = .assign q on a n) ∨ (∃ a n, j.req = .unassign a n) →
    (d.state = .empty → ∃ t, exec (.catalogueReadComplete tag x) s = .next t ∧ Ends s t (.refused .catalogue) ∧
      EventFlag.catalogueDamage.inWord t.core.evu.flags = true) ∧
    (d.state ≠ .empty →
      d.kind = .ring ∨
        d.state ≠ .retired ∧ ((∃ q on a n, j.req = .assign q on a n) ∧ some d.key ≠ j.descA.map Desc.key ∨
          (∃ a n, j.req = .unassign a n) ∧ d.state ≠ .opened) →
      ∃ t, exec (.catalogueReadComplete tag x) s = .next t ∧ Ends s t (.refused .conflict))) ∧
  (∀ (s : State) (tag : Fin 16) (x : Sector) (j : Job) (r : Nat) (d : Desc) (p : CreateParams),
    JobReads s tag.val x j (.desc r) (.desc d) → j.req = .create p →
    (j.stage = .checkRecount ∧ j.index = 4095 ∧ p.share = false ∧
        (j.recount ≠ 0 ∨ d.state ≠ .empty ∧ d.state ≠ .retired ∧ d.key = p.source) ∨
      j.stage = .checkSource ∧ (d.state ≠ .opened ∧ d.state ≠ .sealed ∨ d.kind ≠ .recording ∨ d.unit ≠ p.unit)) →
    ∃ t, exec (.catalogueReadComplete tag x) s = .next t ∧ Ends s t (.refused .badState)) ∧
  (∀ (s : State) (tag : Fin 16) (x : Sector) (j : Job) (k : Nat) (rec : KeyRec),
    JobReads s tag.val x j (.key k) (.key rec) → j.stage = .checkSourceKey → rec.count = 4095 →
    ∃ t, exec (.catalogueReadComplete tag x) s = .next t ∧ Ends s t (.refused .conflict)) ∧
  (∀ (s : State) (tag : Fin 16) (x : Sector) (j : Job) (a b : Nat) (d da db : Desc),
    JobReads s tag.val x j (.desc 4095) (.desc d) → j.stage = .checkAll → j.index = 4095 → j.req = .join a b →
    (if a = 4095 then some d else j.descA) = some da → (if b = 4095 then some d else j.descB) = some db →
    let used (y : Desc) : Prop := y.kind = .recording ∧ (y.state = .opened ∨ y.state = .sealed)
    let refused (why : Reason) : Prop :=
      ∃ t, exec (.catalogueReadComplete tag x) s = .next t ∧ Ends s t (.refused why)
    (¬(used da ∧ used db) → refused .badState) ∧
    (used da → used db → da.key ≠ db.key ∨ da.unit ≠ db.unit → refused .conflict) ∧
    (used da → used db → da.key = db.key → da.unit = db.unit → da.cls ≠ db.cls → refused .copyClass) ∧
    (used da → used db → da.key = db.key → da.unit = db.unit → da.cls = db.cls →
      j.forwardFound = true ∨ d.state = .forward → refused .conflict)) ∧
  ∀ (s : State) (tag : Fin 16) (x : Sector) (j : Job) (r q : Nat) (d : Desc),
    JobReads s tag.val x j (.desc q) (.desc d) → j.req = .purge r →
    (j.stage = .checkRecount → (j.index = 4095 ∧ r ≠ 4095 ∨ j.index = 4094 ∧ r = 4095) →
      j.forwardFound = true ∨ d.state = .forward ∧ d.forward = some r →
      ∃ t, exec (.catalogueReadComplete tag x) s = .next t ∧ Ends s t (.refused .conflict)) ∧
    ∀ b : Desc, j.stage = .checkTarget → j.descA = some b → d.state ≠ .retired →
      ¬((d.state = .opened ∨ d.state = .sealed) ∧ d.kind = .recording ∧ d.key = b.key ∧ d.unit = b.unit) →
      ∃ t, exec (.catalogueReadComplete tag x) s = .next t ∧ Ends s t (.refused .catalogue) ∧
        EventFlag.catalogueDamage.inWord t.core.evu.flags = true

/-- FORMAT, with the catalogue lock clear and a start-up result that allows it, becomes IN-PROGRESS, makes the state
FORMATTING and the cache invalid, and drains every command resolved or in resolution; SET-POLICY locks the header, at once
where there is room, and reads it. Each refuses an unknown policy BAD-PARAMETER; FORMAT is refused NOT-READY on a start-up
result UNSUITABLE, LINK-LOST or NO-KEYS, and SET-POLICY outside READY (R21, R24). That FORMAT waits for FORMAT_DRAIN_END
even with nothing to drain is the model's choice (assumption log 22). -/
def Obligations.FormatAndSetPolicyBegin : Prop :=
  (∀ (c : Instr) (code : Nat) (s : State) (w : WinCmd) (why : Reason), w.paramLength = 1 →
    (c = .format ∧ code = 4 ∨ c = .setPolicy ∧ code = 5) → Fresh s.core code w →
    (why = .badParameter ∧ 1 < field w.record 8 1 ∨
      why = .notReady ∧ field w.record 8 1 ≤ 1 ∧ s.set.catalogueLock = false ∧
        (c = .format ∧ (s.core.ctp.startUp = .unsuitable ∨ s.core.ctp.startUp = .linkLost ∨ s.core.ctp.startUp = .noKeys) ∨
          c = .setPolicy ∧ s.core.ctp.state ≠ .ready)) →
    ∃ t, exec c s = .next t ∧ Shows s t w code (.refused why) ∧ t.set = s.set ∧ t.core.mgw.job = none ∧
      (CalmMoment s.core → Calm s t ∧ t.core.evu = s.core.evu)) ∧
  ∀ (s : State) (w : WinCmd) (p : Policy), s.set.catalogueLock = false → w.paramLength = 1 →
    field w.record 8 1 = p.code → s.core.dlp.link ≠ .lost →
    (Fresh s.core 4 w → s.core.ctp.startUp ≠ .unsuitable → s.core.ctp.startUp ≠ .linkLost → s.core.ctp.startUp ≠ .noKeys →
      ∃ t, exec .format s = .next t ∧ Shows s t w 4 .inProgress ∧ t.set = s.set ∧ t.core.ctp.state = .formatting ∧
        (∀ x ∈ t.core.rsv.cache, ∀ y ∈ x.ways, y = none) ∧ (∀ v, t.core.rsv.current = some v → ∀ g ∈ v.segs, g.stale = true) ∧
        (∃ j, t.core.mgw.job = some j ∧ j.req = .format p ∧ j.stage = .formatDrain ∧
          j.drain = s.core.txe.list.map TxEntry.id ++ (s.core.rsv.current.toList.map fun v => v.cmd.id)) ∧
        t.core.evu = s.core.evu ∧ t.core.kst = s.core.kst ∧ t.core.rings = s.core.rings ∧ t.core.txe = s.core.txe) ∧
    (Fresh s.core 5 w → s.core.ctp.state = .ready → s.core.ctp.locks = [] → s.core.ctp.lockWait = [] →
      ∃ t, exec .setPolicy s = .next t ∧ Begins s t w 5 (.setPolicy p) .writeHeader .header ∧
        t.core.ctp.locks = [{ sector := .header, holder := .request, since := s.core.ctp.seq }] ∧ t.core.evu = s.core.evu ∧
        t.core.kst = s.core.kst ∧ t.core.rings = s.core.rings ∧ t.core.txe = s.core.txe ∧ t.core.rsv = s.core.rsv)

/-- RING-ATTACH is refused NOT-READY, STATE or CONFLICT at once, or reads the region's descriptor, which makes the context
ATTACHED with every chunk EMPTY, or refuses it STATE. RING-DETACH makes its context DETACHING and waits, or frees it at
once when it has no holder. RING-RETENTION clamps its minutes and reads the descriptor: minutes not below the descriptor's
end it DONE with the descriptor's, CLAMPED where they were above; lower ones are written, and the write, failed or not,
lowers L. That it clamps before the catalogue state is looked at is DEDUCED (assumption log 26), and that a failed write
sets L to the new limit also where L is lower already is the model's choice (assumption log 40) (R111 to R114, R126). -/
def Obligations.RingRequestsTakeEffect : Prop :=
  (∀ (s : State) (w : WinCmd), s.core.dlp.link ≠ .lost →
    let v := w.record
    let r := field v 8 2
    let x := field v 8 1
    (Fresh s.core 22 w → w.paramLength = 3 → 1 ≤ r → r ≤ 4095 → field v 10 1 < 4 →
      let y := field v 10 1
      let refused (why : Reason) : Prop :=
        ∃ t, exec .ringAttach s = .next t ∧ Shows s t w 22 (.refused why) ∧ t.set = s.set ∧ t.core.rings = s.core.rings
      (s.core.ctp.state ≠ .ready → refused .notReady) ∧
      (s.core.ctp.state = .ready → (ringCtx y s.core).isSome = true → refused .badState) ∧
      (s.core.ctp.state = .ready → ringCtx y s.core = none → (∃ z < 4, ∃ k, ringCtx z s.core = some k ∧ k.region = r) →
        refused .conflict) ∧
      (s.core.ctp.state = .ready → ringCtx y s.core = none → (∀ z < 4, ∀ k, ringCtx z s.core = some k → k.region ≠ r) →
        ∃ t, exec .ringAttach s = .next t ∧ Begins s t w 22 (.ringAttach r y) .checkDesc (.desc r) ∧
          t.core.evu = s.core.evu ∧ t.core.rings = s.core.rings)) ∧
    (Fresh s.core 23 w → w.paramLength = 1 → x < 4 → s.core.rings.length = 4 → ∀ k, ringCtx x s.core = some k →
      k.detaching = false →
      ∃ t, exec .ringDetach s = .next t ∧ t.set = s.set ∧
        (ctxHeld x s.core = true → Shows s t w 23 .inProgress ∧ ringCtx x t.core = some { k with detaching := true } ∧
          (∃ j, t.core.mgw.job = some j ∧ j.req = .ringDetach x ∧ j.stage = .detaching ∧ j.ctx = x)) ∧
        (ctxHeld x s.core = false → Shows s t w 23 (.done []) ∧ ringCtx x t.core = none ∧ t.core.mgw.job = none ∧
          EventFlag.requestDone.inWord t.core.evu.flags = true) ∧
        ∀ y, y ≠ x → ringCtx y t.core = ringCtx y s.core) ∧
    (Fresh s.core 24 w → w.paramLength = 4 → 1 ≤ r → r ≤ 4095 →
      let m := if field v 10 2 = 0 then 1 else if 1440 < field v 10 2 then 1440 else field v 10 2
      (s.core.ctp.state ≠ .ready → ∃ t, exec .ringRetention s = .next t ∧ Shows s t w 24 (.refused .notReady) ∧
        t.set = s.set ∧ t.core.rings = s.core.rings) ∧
      (s.core.ctp.state = .ready →
        ∃ t, exec .ringRetention s = .next t ∧ Begins s t w 24 (.ringRetention r m) .checkDesc (.desc r) ∧
          (m ≠ field v 10 2 → EventFlag.clamped.inWord t.core.evu.flags = true) ∧
          (m = field v 10 2 → t.core.evu = s.core.evu) ∧ t.core.rings = s.core.rings))) ∧
  (∀ (s : State) (tag : Fin 16) (x : Sector) (j : Job) (r : Nat) (d : Desc),
    JobReads s tag.val x j (.desc r) (.desc d) → j.stage = .checkDesc →
    ((∃ y, j.req = .ringAttach r y) ∨ (∃ m, j.req = .ringRetention r m) → d.state ≠ .opened ∨ d.kind ≠ .ring →
      ∃ t, exec (.catalogueReadComplete tag x) s = .next t ∧ Ends s t (.refused .badState) ∧ t.core.rings = s.core.rings) ∧
    ∀ p : RingPart, d.state = .opened → d.kind = .ring → d.ring = some p →
      (∀ y, j.req = .ringAttach r y → y < 4 → s.core.rings.length = 4 →
        ∃ t res, exec (.catalogueReadComplete tag x) s = .next t ∧ Ends s t (.done res) ∧ res.length = 12 ∧
          res.take 1 = leBytes 1 y ∧ res.drop 2 = leBytes 2 (8 * p.auCount) ++ leBytes 8 (p.firstAu * 65536) ∧
          ringCtx y t.core = some { detaching := false, region := r, first := p.firstAu * 65536,
                                    chunkCount := 8 * p.auCount, never := decide (d.cls = .never),
                                    limit := p.minutes * 60, chunks := List.replicate (8 * p.auCount) .empty } ∧
          ∀ z, z ≠ y → ringCtx z t.core = ringCtx z s.core) ∧
      ∀ m, j.req = .ringRetention r m →
        (p.minutes ≤ m → ∃ t, exec (.catalogueReadComplete tag x) s = .next t ∧ Ends s t (.done (leBytes 2 p.minutes)) ∧
          t.core.rings = s.core.rings ∧ (p.minutes < m → EventFlag.clamped.inWord t.core.evu.flags = true)) ∧
        (m < p.minutes → ∃ t, exec (.catalogueReadComplete tag x) s = .next t ∧ t.set = s.set ∧
          t.core.rings = s.core.rings ∧ t.core.mgw.response = s.core.mgw.response ∧
          t.core.mgw.job = some { j with descA := some d, stage := .writeDesc, index := 0 })) ∧
  ∀ (s : State) (tag : Fin 16) (a : Access) (data : Sector) (lba : Option Nat) (j : Job) (r m : Nat),
    s.core.dlp.link ≠ .lost → HoldsAccess s.core tag.val a → a.dir = .write data (.edit r) → a.owner = .request →
    a.sector = .desc r → s.core.mgw.job = some j → j.stage = .writeDesc → j.req = .ringRetention r m →
    let lowered (t : State) : Prop := ∀ y k, ringCtx y s.core = some k →
      ringCtx y t.core = some (if k.region = r then { k with limit := m * 60 } else k)
    (∃ t, exec (.catalogueWriteComplete tag) s = .next t ∧ Ends s t (.done (leBytes 2 m)) ∧ lowered t) ∧
    ∃ t, exec (.queuedError tag lba) s = .next t ∧ Ends s t (.refused .drive) ∧ lowered t

/-! ### The drive link (chapter 8) -/

/-- TAG_GRANT, in UP with no PLAIN request waiting or in the table: the head of the CTP line while the CTP holds fewer
than 2 entries, else the head of the TXE line, takes the lowest free tag with its deadline; otherwise nothing is granted.
PLAIN_ISSUE sends the first PLAIN request alone under tag 0, and the sectors a PASS moves join the link list in their
order. FLUSH_ISSUE hands the FLUSH to the DLP once no write is in flight (R147, R164, R168, R177, R178, R181, R184). The
model's own: one grant for each TAG_GRANT (assumption log 22), a PASS's moves, which are a free value, handed when it is
sent (log 11), an event whose moment has not come changes nothing (log 5), and, DEDUCED, a write in flight while its
request is in the table (log 27). -/
def Obligations.DriveRequestsIssued : Prop :=
  (∀ (s : State) (t : Nat), s.core.dlp.link = .up → s.core.dlp.plain = [] → (∀ q ∈ s.core.dlp.table, q.isPlain = false) →
      t < 16 → (∀ q ∈ s.core.dlp.table, q.tag ≠ t) → (∀ u < t, ∃ q ∈ s.core.dlp.table, q.tag = u) →
      let issued (b : ReqBody) : DriveReq := { tag := t, body := b, deadline := s.set.timer + s.set.timeout * 25000000 }
      (∀ a rest, s.core.dlp.ctpLine = a :: rest → ctpHeld s.core.dlp < 2 →
        exec .tagGrant s = .next { s with core := { s.core with dlp := { s.core.dlp with
          ctpLine := rest, table := s.core.dlp.table ++ [issued (.catalogue a)] } } }) ∧
      (∀ q rest, s.core.dlp.txeLine = q :: rest → s.core.dlp.ctpLine = [] ∨ 2 ≤ ctpHeld s.core.dlp →
        exec .tagGrant s = .next { s with core := { s.core with dlp := { s.core.dlp with
          txeLine := rest, table := s.core.dlp.table ++ [issued (.transfer q)] } } })) ∧
  (∀ s : State, s.core.dlp.link ≠ .up ∨ s.core.dlp.plain ≠ [] ∨ (∃ q ∈ s.core.dlp.table, q.isPlain = true) ∨
      (∀ t < 16, ∃ q ∈ s.core.dlp.table, q.tag = t) → exec .tagGrant s = .next s) ∧
  (∀ (s : State) (p : PlainReq) (rest : List PlainReq), s.core.dlp.plain = p :: rest →
      (s.core.dlp.link = .up → s.core.dlp.table = [] →
        exec .plainIssue s = .next { s with core := { s.core with
          rlp := { s.core.rlp with linkList := s.core.rlp.linkList ++
            if p.kind = .pass ∧ p.live = true then (Config.passPhase s.core.dlp.passes).map fun m => match m with
              | .toDrive more => .draw .untagged .pass (more + 1)
              | .toRecorder x xs => .delivery .untagged .pass (x :: xs)
            else [] }
          dlp := { s.core.dlp with
            plain := rest
            passes := if p.kind = .pass ∧ p.live = true then s.core.dlp.passes + 1 else s.core.dlp.passes
            table := [{ tag := 0, body := .plain p, deadline := s.set.timer + s.set.timeout * 25000000 }] } } }) ∧
      (s.core.dlp.link ≠ .up ∨ s.core.dlp.table ≠ [] → exec .plainIssue s = .next s)) ∧
  ∀ s : State, s.core.txe.flush = .waiting →
    ((∃ q ∈ s.core.dlp.table, q.isWrite = true) → exec .flushIssue s = .next s) ∧
    ((∀ q ∈ s.core.dlp.table, q.isWrite = false) →
      (s.core.dlp.link ≠ .lost → exec .flushIssue s = .next { s with core := { s.core with
        txe := { s.core.txe with flush := .issued }
        dlp := { s.core.dlp with
          plain := s.core.dlp.plain ++ [{ kind := .flush, frame := none, live := true, data := [] }] } } }) ∧
      (s.core.dlp.link = .lost → ∃ t, exec .flushIssue s = .next t ∧ t.core.txe.flush = .none ∧
        t.core.rlp.linkList = s.core.rlp.linkList ++ [.completion .untagged .driveTimeout]))

/-- DEADLINE_EXPIRY: DRIVE-TIMEOUT is raised, every request of the table is failed, and recovery begins with its first
attempt; the TXE line and the waiting PLAIN requests keep their places. QUEUED_ERROR: DRIVE-ERROR is raised, the request
ends, and the others are reissued with new deadlines and stand in ascending tag order. The commands behind complete
DRIVE-TIMEOUT, or MEDIA with the LBA R146, R149 and R150 give; a management request ends REFUSED(DRIVE). A failed write of
FORMAT raises CATALOGUE-DAMAGE; no more are issued, and with none left FORMAT ends REFUSED(DRIVE), the header copy
cleared, INCOMPLETE and ABSENT (R10, R13, R23, R151, R154, R179, R180, R181, R183). That FORMAT's writes not yet issued to
the drive are withdrawn (assumption log 18), and that a deadline that has not passed changes nothing (assumption log 5),
is the model's choice. -/
def Obligations.FailedRequests : Prop :=
  (∀ (s : State) (q : DriveReq), q ∈ s.core.dlp.table → q.deadline ≤ s.set.timer →
      ∃ t, exec .deadlineExpiry s = .next t ∧ t.set = s.set ∧ t.core.dlp.link = .recovery ∧ t.core.dlp.attempts = 0 ∧
        t.core.dlp.bring = .waitReady (s.set.timer + 250000000) ∧ t.core.dlp.table = [] ∧
        t.core.dlp.txeLine = s.core.dlp.txeLine ∧ t.core.dlp.plain = s.core.dlp.plain ∧
        t.core.dlp.identity = s.core.dlp.identity ∧ EventFlag.driveTimeout.inWord t.core.evu.flags = true ∧
        ∀ q' ∈ s.core.dlp.table,
          (∀ x e, q'.body = .transfer x → findTx x.id s.core = some e → e.state = .moving →
            .completion e.tag .driveTimeout ∈ t.core.rlp.linkList) ∧
          (∀ p, q'.body = .plain p → p.live = true → .completion .untagged .driveTimeout ∈ t.core.rlp.linkList) ∧
          ∀ a, q'.body = .catalogue a → a.owner = .request → s.core.mgw.job.isSome = true →
            t.core.mgw.response.status = .refused .drive ∧ t.core.mgw.job = none) ∧
  (∀ s : State, (∀ q ∈ s.core.dlp.table, s.set.timer < q.deadline) → exec .deadlineExpiry s = .next s) ∧
  (∀ (s : State) (tag : Fin 16) (lba : Option Nat) (x : TxReq) (e : TxEntry), s.core.dlp.link ≠ .lost →
      HoldsTransfer s.core tag.val x → findTx x.id s.core = some e →
      ∃ t, exec (.queuedError tag lba) s = .next t ∧ t.set = s.set ∧
        t.core.dlp.table.Perm ((s.core.dlp.table.filter fun q => decide (q.tag ≠ tag.val)).map fun q =>
          { q with deadline := s.set.timer + s.set.timeout * 25000000 }) ∧
        (t.core.dlp.table.map DriveReq.tag).Pairwise (· ≤ ·) ∧
        EventFlag.driveError.inWord t.core.evu.flags = true ∧ (∀ e' ∈ t.core.txe.list, e'.id ≠ e.id) ∧
        (e.state = .abandoned → t.core.rlp = s.core.rlp) ∧
        (e.state ≠ .abandoned → ∃ m, t.core.rlp.linkList = s.core.rlp.linkList ++ [.completion e.tag (.media m)] ∧
          (∀ l n rs, x.kind = .discard → x.ranges = (l, n) :: rs → m = l) ∧
          (∀ l is, x.kind ≠ .discard → e.items = .mergeRead l :: is → m = max e.start l) ∧
          ∀ l n a b is g, x.kind ≠ .discard → e.items = .piece l n a b :: is → e.plan[e.pos]? = some g →
            m = max e.start (if g.disp = .cipher ∧ g.unit = 8 then lba.getD x.lba / 8 * 8 else lba.getD x.lba))) ∧
  ∀ (s : State) (tag : Fin 16) (lba : Option Nat) (a : Access), s.core.dlp.link ≠ .lost → HoldsAccess s.core tag.val a →
    ∃ t, exec (.queuedError tag lba) s = .next t ∧ t.set = s.set ∧ EventFlag.driveError.inWord t.core.evu.flags = true ∧
      (a.owner = .request → s.core.mgw.job.isSome = true → t.core.mgw.response.status = .refused .drive ∧
        t.core.mgw.job = none ∧ EventFlag.requestDone.inWord t.core.evu.flags = true ∧
        (a.dir ≠ .read → EventFlag.catalogueDamage.inWord t.core.evu.flags = true)) ∧
      (∀ j p, a.owner = .format → a.dir ≠ .read → s.core.mgw.job = some j → j.req = .format p →
        let left := j.outstanding - 1 - (s.core.ctp.queue ++ s.core.dlp.ctpLine).countP fun b => decide (b.owner = .format)
        EventFlag.catalogueDamage.inWord t.core.evu.flags = true ∧
        (∀ b ∈ t.core.ctp.queue ++ t.core.dlp.ctpLine, b.owner ≠ .format) ∧
        (left = 0 → Ends s t (.refused .drive) ∧ t.core.ctp.identity = none ∧ t.core.ctp.policy = none ∧
          t.core.ctp.startUp = .incomplete ∧ t.core.ctp.state = .absent) ∧
        (left ≠ 0 → t.core.mgw = { s.core.mgw with job := some { j with failed := true, outstanding := left } } ∧
          t.core.ctp.startUp = s.core.ctp.startUp ∧ t.core.ctp.state = s.core.ctp.state)) ∧
      ∀ r i g, a.owner = .walk → a.dir = .read → s.core.rsv.current = some r → r.phase = .walking i → r.segs[i]? = some g →
        t.core.rsv.current = none ∧
          t.core.rlp.linkList = s.core.rlp.linkList ++ [.completion r.cmd.tag (.refused .catalogue)] ∧
          t.core.evu.lastRefusal = some { tag := r.cmd.tag, status := .refused .catalogue, lba := g.first }

/-- The ends of the drive's flush, of a PASS and of the IDENTIFY read: the command completes GOOD, or MEDIA with
DRIVE-ERROR, behind what is on the link list; the sectors a PASS moves last (assumption log 11) and the rewritten identity
sector go before the status. That sector carries RC, the queue depth and the window code in their places, sums to 0 where
its low byte of word 255 is A5h, and is otherwise the drive's. A command that a reset abandoned gives the link nothing
(R148, R164, R167, R178, R207). That the window code without the validity mark is 64 zero bits in the IDENTIFY sector too
is DEDUCED (assumption log 25). -/
def Obligations.PlainRequestsEnd : Prop :=
  ∀ (s : State) (q : DriveReq) (p : PlainReq), s.core.dlp.table = [q] → q.tag = 0 → q.body = .plain p →
    (p.kind = .flush → ∀ r : DriveEnd, ∃ t : State,
      exec (.driveFlushEnd r) s = .next t ∧ t.set = s.set ∧ t.core.dlp.table = [] ∧
      (p.live = true → t.core.txe.flush = .none ∧ ∃ st : LinkStatus, (r = .good → st = .good) ∧
        (∀ lba, r = .error lba → st = .media (lba.getD 0)) ∧
        t.core.rlp.linkList = s.core.rlp.linkList ++ [.completion .untagged st]) ∧
      (p.live = false → t.core.rlp = s.core.rlp) ∧ (r = .good → t.core.evu = s.core.evu) ∧
      (r ≠ .good → EventFlag.driveError.inWord t.core.evu.flags = true)) ∧
    (p.kind = .pass → ∀ (r : DriveEnd) (data : List Sector), ∃ t : State,
      exec (.passEnd r data) s = .next t ∧ t.set = s.set ∧ t.core.dlp.table = [] ∧
      (p.live = true → ∃ st : LinkStatus, (r = .good → st = .good) ∧ (∀ lba, r = .error lba → st = .media (lba.getD 0)) ∧
        t.core.rlp.linkList = s.core.rlp.linkList ++
          (if data = [] then [] else [.delivery .untagged .pass data]) ++ [.completion .untagged st]) ∧
      (p.live = false → t.core.rlp = s.core.rlp) ∧ (r = .good → t.core.evu = s.core.evu) ∧
      (r ≠ .good → EventFlag.driveError.inWord t.core.evu.flags = true)) ∧
    (p.kind = .identify →
      (∀ lba : Option Nat, ∃ t : State, exec (.identifyReadEnd (.error lba)) s = .next t ∧ t.set = s.set ∧ t.core.dlp.table = [] ∧
        EventFlag.driveError.inWord t.core.evu.flags = true ∧ (p.live = false → t.core.rlp = s.core.rlp) ∧
        (p.live = true → t.core.rlp.linkList = s.core.rlp.linkList ++ [.completion .untagged (.media 0)])) ∧
      ∀ x : Sector, s.core.ctp.placement.reported < 2 ^ 64 →
        ∃ (t : State) (y : Sector), exec (.identifyReadEnd (.good x)) s = .next t ∧ t.set = s.set ∧ t.core.dlp.table = [] ∧
          t.core.dlp.identity = s.core.dlp.identity ∧ t.core.ctp = s.core.ctp ∧ (p.live = false → t.core.rlp = s.core.rlp) ∧
          (p.live = true → t.core.rlp.linkList =
            s.core.rlp.linkList ++ [.delivery .untagged .identify [y], .completion .untagged .good]) ∧
          field y.toNat 200 8 = s.core.ctp.placement.reported ∧
          field y.toNat 120 4 = min s.core.ctp.placement.reported 268435455 ∧ field y.toNat 150 2 % 32 = 15 ∧
          field y.toNat 150 2 / 32 = field x.toNat 150 2 / 32 ∧
          field y.toNat 258 8 = (if s.set.otp.valid then s.set.otp.windowCode.toNat else 0) ∧
          (field x.toNat 510 1 = 0xA5 → ((List.range 512).map fun b => field y.toNat b 1).sum % 256 = 0) ∧
          ∀ b < 512, ¬(120 ≤ b ∧ b < 124) → ¬(150 ≤ b ∧ b < 152) → ¬(200 ≤ b ∧ b < 208) → ¬(258 ≤ b ∧ b < 266) →
            (b = 511 → field x.toNat 510 1 ≠ 0xA5) → field y.toNat b 1 = field x.toNat b 1)

/-! ### Catalogue accesses (chapters 1 to 4) -/

/-- CATALOGUE_READ_COMPLETE, checked and judged. The start-up check ends by Table 1-9; every other damaged sector raises
CATALOGUE-DAMAGE, an abandoned command's too, refuses a walk's command CATALOGUE with the LBA of its segment, and refuses
a management request CATALOGUE; a walk goes on from a page to the region it names; READ-REGION gives its results. A key
load puts the unwrapped key in its slot: the request that waits on it takes the slot, or is refused KEY-LOST where the
unit size differs; without a key it ends EMPTY and refuses the command that began it KEY-LOST. The locked read of a flag
update is rechecked against every segment it serves: it refuses NO-ACCESS, CATALOGUE or PROTECTED with the LBA of the
first, writes the descriptor with the flag alone, or, where the flag is set already, releases its lock (R8, R17, R47, R76,
R78, R83, R86, R88, R91, R93, R198). That a read whose requester is gone is verified too, and raises CATALOGUE-DAMAGE, is
DEDUCED (assumption log 13). -/
def Obligations.CatalogueReadsReachRequester : Prop :=
  ∀ (s : State) (tag : Fin 16) (x : Sector) (a : Access), s.core.dlp.link ≠ .lost → HoldsAccess s.core tag.val a →
    a.dir = .read →
    let v := verifySector s.core.kst.keys s.core.ctp a.sector x
    ∃ t, exec (.catalogueReadComplete tag x) s = .next t ∧ t.set = s.set ∧
      (a.owner ≠ .startUp → v = none → EventFlag.catalogueDamage.inWord t.core.evu.flags = true) ∧
      (a.owner = .discarded ∨ a.owner = .orphanRead → v ≠ none → t.core.evu = s.core.evu) ∧
      (a.owner = .startUp → a.sector = .header → t.core.evu = s.core.evu.raise s.set .startUp ∧
        (v = none → t.core.ctp.state = .absent ∧ t.core.ctp.startUp = .noCatalogue) ∧
        ∀ h, v = some (.header h) →
          (h.complete = false → t.core.ctp.state = .absent ∧ t.core.ctp.startUp = .incomplete) ∧
          (h.complete = true → h.capacity ≠ s.core.ctp.placement.usable →
            t.core.ctp.state = .absent ∧ t.core.ctp.startUp = .capacityMismatch) ∧
          (h.complete = true → h.capacity = s.core.ctp.placement.usable → t.core.ctp.state = .ready ∧
            t.core.ctp.startUp = .ready ∧ t.core.ctp.identity = some h.identity ∧ t.core.ctp.policy = some h.policy)) ∧
      (∀ r i g, a.owner = .walk → s.core.rsv.current = some r → r.phase = .walking i → r.segs[i]? = some g →
        (v = none → t.core.rsv.current = none ∧ EventFlag.catalogueDamage.inWord t.core.evu.flags = true ∧
          t.core.evu.lastRefusal = some { tag := r.cmd.tag, status := .refused .catalogue, lba := g.first } ∧
          t.core.rlp.linkList = s.core.rlp.linkList ++ [.completion r.cmd.tag (.refused .catalogue)]) ∧
        ∀ es b p, a.sector = .page (g.au / 120) → v = some (.page es) → es[g.au % 120]? = some (.region b p) →
          g.window = none → g.looked = true → memoDesc r.memo b = none →
          t.core.rlp = s.core.rlp ∧ t.core.evu = s.core.evu ∧
            ∃ a' ∈ t.core.ctp.queue ++ t.core.dlp.ctpLine, a'.sector = .desc b ∧ a'.dir = .read ∧ a'.owner = .walk) ∧
      (∀ j, a.owner = .request → s.core.mgw.job = some j →
        (v = none → j.stage ≠ .checkRecount → t.core.mgw.job = none ∧
          t.core.mgw.response = { s.core.mgw.response with status := .refused .catalogue } ∧
          EventFlag.catalogueDamage.inWord t.core.evu.flags = true ∧
          EventFlag.requestDone.inWord t.core.evu.flags = true) ∧
        ∀ r d, j.req = .readRegion r → j.stage = .checkDesc → v = some (.desc d) → t.core.mgw.job = none ∧
          t.core.mgw.response = { s.core.mgw.response with status := .done (leBytes 20 d.encode ++ d.area) } ∧
          EventFlag.requestDone.inWord t.core.evu.flags = true) ∧
      (∀ j k, a.owner = .keyLoad j → (s.core.kst.slot j).state = .loading → (s.core.kst.slot j).record = some k →
        SlotsOk s.core.kst → (∀ l ∈ s.core.ctp.locks, l.sector ≠ .key k) →
        (∀ rec, v = some (.key rec) → rec.live = true → loadWaiter j s.core = none →
          (t.core.kst.slot j).state = .ready ∧ (t.core.kst.slot j).use = 0 ∧ (t.core.kst.slot j).unit = rec.unit ∧
            (t.core.kst.slot j).key =
              some (((Config.keyWrap ((s.core.kst.keys.map Keys.wrapping).getD 0)).wrap k).symm rec.wrapped) ∧
            t.core.kst.reuse = s.core.kst.reuse ++ [j] ∧ t.core.rlp = s.core.rlp) ∧
        (∀ rec i own r g info, v = some (.key rec) → rec.live = true → loadWaiter j s.core = some (i, own) →
          s.core.rsv.current = some r → r.segs[i]? = some g → g.disp = some .cipher → g.slot = none →
          g.entry.bind CacheEntry.region = some info → info.key = k →
          (t.core.kst.slot j).state = .ready ∧ (t.core.kst.slot j).unit = rec.unit ∧
          (rec.unit = info.unit → r.segs.length = i + 1 → t.core.rsv.current = none ∧ (t.core.kst.slot j).use = 1 ∧
            j ∉ t.core.kst.reuse ∧ t.core.rlp.linkList = s.core.rlp.linkList ∧
            ∃ e, t.core.txe.list = s.core.txe.list ++ [e] ∧ e.id = r.cmd.id ∧ e.state = .waitingRange ∧
              (e.plan[i]?).bind PlanSeg.slot = some j) ∧
          (rec.unit ≠ info.unit → t.core.rsv.current = none ∧ EventFlag.keyLost.inWord t.core.evu.flags = true ∧
            t.core.evu.lastRefusal = some { tag := r.cmd.tag, status := .refused .keyLost, lba := g.first } ∧
            t.core.rlp.linkList = s.core.rlp.linkList ++ [.completion r.cmd.tag (.refused .keyLost)])) ∧
        ∀ i g, (v = none ∨ ∃ rec, v = some (.key rec) ∧ rec.live = false) → loadWaiter j s.core = some (i, true) →
          (∀ r ∈ s.core.rsv.current, r.segs[i]? = some g) → ∀ r, s.core.rsv.current = some r →
          (t.core.kst.slot j).state = .empty ∧ t.core.rsv.current = none ∧
            EventFlag.keyLost.inWord t.core.evu.flags = true ∧
            t.core.evu.lastRefusal = some { tag := r.cmd.tag, status := .refused .keyLost, lba := g.first } ∧
            t.core.rlp.linkList = s.core.rlp.linkList ++ [.completion r.cmd.tag (.refused .keyLost)]) ∧
      ∀ (b : Nat) (r : Resolution) (pre post : List Seg) (g : Seg) (i : RegionInfo), a.owner = .flagUpdate →
        s.core.rsv.current = some r → r.phase = .flagRead b →
        let k := r.cmd.kind
        let needs (y : Seg) (n : RegionInfo) : Prop := y.entry.bind CacheEntry.region = some n ∧ n.region = b ∧
          (k = .read ∧ n.played = false ∨ k = .write ∧ y.disp = some .cipher ∧ n.written = false)
        let refused (why : Reason) : Prop := t.core.rsv.current = none ∧ t.core.txe = s.core.txe ∧
          (∀ l ∈ t.core.ctp.locks, l.holder ≠ .resolver) ∧
          t.core.evu.lastRefusal = some { tag := r.cmd.tag, status := .refused why, lba := g.first } ∧
          t.core.rlp.linkList = s.core.rlp.linkList ++ [.completion r.cmd.tag (.refused why)]
        r.segs = pre ++ g :: post → needs g i → (∀ y ∈ pre, ∀ n, ¬needs y n) →
        (v = none → refused .catalogue) ∧
        ∀ d, v = some (.desc d) →
          let same (n : RegionInfo) : Prop := d.kind = n.kind ∧ d.unit = n.unit ∧ d.key = n.key
          let shut (y : Seg) : Prop :=
            k = .write ∧ (d.state = .sealed ∨ d.locked = true ∨ ∃ e, y.entry = some e ∧ e.protect = true)
          let used := d.state = .opened ∨ d.state = .sealed
          let d' := if k = .read then { d with played := true } else { d with written := true }
          (d.state = .retired → refused .noAccess ∧ EventFlag.accessRefusal.inWord t.core.evu.flags = true) ∧
          (d.state = .empty ∨ d.state = .forward ∨ used ∧ ¬same i →
            refused .catalogue ∧ t.core.evu.flags = s.core.evu.flags) ∧
          (used → same i → shut g → refused .protect ∧ EventFlag.protectRefusal.inWord t.core.evu.flags = true) ∧
          (used → (∀ y ∈ r.segs, ∀ n, needs y n → same n ∧ ¬shut y) →
            (d' ≠ d → t.core.rlp = s.core.rlp ∧ t.core.ctp.locks = s.core.ctp.locks ∧
              t.core.rsv.current = some { r with phase := .flagWrite b } ∧
              ∃ w ∈ t.core.ctp.queue ++ t.core.dlp.ctpLine, w.sector = .desc b ∧ w.owner = .flagUpdate ∧
                w.dir = .write (writtenSector s.core.kst.keys s.core.ctp (.desc b) (.desc d'))
                  (.flags b (decide (k = .read)) (decide (k = .write)) d')) ∧
            (d' = d → r.segs = [g] → r.updates = [b] → (∀ l ∈ t.core.ctp.locks, l.holder ≠ .resolver) ∧
              ∀ c ∈ t.core.rsv.cache, ∀ w ∈ c.ways, ∀ e n, w = some e → e.region = some n → n.region = b →
                (k = .read → n.played = true) ∧ (k = .write → n.written = true)))

/-- An edit reads each sector under the lock and writes it back with its own change alone, tagged, and with its change
notice. Descriptors: CREATE's, SET-LOCKED, SET-FLAGS, WRITE-AREA, SEAL, UNSEAL, DELETE, PURGE, JOIN, RING-RETENTION, and
the EMPTY one JOIN and PURGE end with. Map pages: the entries of the AUs that CREATE, ASSIGN, UNASSIGN, SET-CLEAR and
SET-AU-PROTECT name, those naming the region that JOIN and PURGE scan for, the notice naming the AUs that changed; an
unchanged page is released unwritten. Key records: CREATE's count 1 or one more, DELETE's and JOIN's one less, PURGE's
recount, EMPTY at 0; DELETE and JOIN leave an EMPTY record unwritten. The header: SET-POLICY's policy (R24, R29, R30, R32,
R37, R38, R40 to R46, R49, R50, R52, R54, R56, R57, R126). That CREATE with SHARE raises the count of an EMPTY record too
is DEDUCED (assumption log 20). -/
def Obligations.EditsWriteTheirChange : Prop :=
  (∀ (s : State) (tag : Fin 16) (x : Sector) (j : Job) (r : Nat) (d d' : Desc),
    JobReads s tag.val x j (.desc r) (.desc d) →
    (j.stage = .writeDesc ∧
        ((∃ p src, j.req = .create p ∧ p.region = r ∧ (p.share = true → j.descB = some src) ∧
            d' = { state := .opened, kind := p.kind, cls := if p.share then src.cls else p.cls, unit := p.unit,
                   key := if p.share then src.key else p.source, locked := false, played := false, written := false,
                   ring := if p.kind = .ring then
                     some { firstAu := p.firstAu, auCount := p.auCount, minutes := p.minutes } else none,
                   forward := none, area := [] }) ∨
          (∃ on, j.req = .setLocked r on ∧ d' = { d with locked := on }) ∨
          (∃ p w, j.req = .setFlags r p w ∧ d' = { d with played := p, written := w }) ∨
          (∃ bs, j.req = .writeArea r bs ∧ d' = { d with area := bs }) ∨
          (j.req = .seal r ∧ d' = { d with state := .sealed, cls := if d.cls = .once then .noMore else d.cls }) ∨
          (j.req = .unseal r ∧ d' = { d with state := .opened }) ∨
          ((j.req = .delete r ∨ j.req = .purge r) ∧ d' = { d with state := .retired, forward := none }) ∨
          (∃ b, j.req = .join b r ∧ d' = { d with state := .forward, forward := some b }) ∨
          ∃ m p, j.req = .ringRetention r m ∧ d.state = .opened ∧ d.ring = some p ∧
            d' = { d with ring := some { p with minutes := m } }) ∨
      j.stage = .writeLast ∧ ((∃ b, j.req = .join b r) ∨ j.req = .purge r) ∧
        d' = { state := .empty, kind := .recording, cls := .free, unit := 1, key := 0, locked := false, played := false,
               written := false, ring := none, forward := none, area := [] }) →
    ∃ t, exec (.catalogueReadComplete tag x) s = .next t ∧ Writes s t (.desc r) (.desc d') (.edit r) ∧
      t.core.mgw = s.core.mgw) ∧
  (∀ (s : State) (tag : Fin 16) (x : Sector) (j : Job) (es : List MapEntry) (new : Nat → MapEntry → MapEntry),
    JobReads s tag.val x j (.page j.index) (.page es) → j.stage = .writePages →
    ((∃ p, j.req = .create p ∧ ∀ au e, new au e =
          if p.firstAu ≤ au ∧ au < p.firstAu + p.auCount then .region p.region false else e) ∨
      (∃ r on a n, j.req = .assign r on a n ∧ ∀ au e, new au e = if a ≤ au ∧ au < a + n then .region r on else e) ∨
      (∃ a n, j.req = .unassign a n ∧ ∀ au e, new au e = if a ≤ au ∧ au < a + n then .unassigned else e) ∨
      (∃ a n, j.req = .setClear a n ∧ ∀ au e, new au e = if a ≤ au ∧ au < a + n then .clear false else e) ∨
      (∃ a n on, j.req = .setAuProtect a n on ∧ ∀ au e, new au e =
          if a ≤ au ∧ au < a + n then (match e with
            | .unassigned => .unassigned
            | .clear _ => .clear on
            | .region r _ => .region r on) else e) ∨
      (∃ a b, j.req = .join a b ∧ ∀ au e, new au e = match e with
          | .region r p => if r = b then .region a p else .region r p
          | e => e) ∨
      ∃ b, j.req = .purge b ∧ ∀ au e, new au e = match e with
          | .region r p => if r = b then (match j.target with
            | some a => .region a p
            | none => .unassigned) else .region r p
          | e => e) →
    let at' := es.zipIdx (120 * j.index)
    let aus := at'.filterMap fun y => if new y.2 y.1 = y.1 then none else some y.2
    ∃ t, exec (.catalogueReadComplete tag x) s = .next t ∧
      (aus ≠ [] → Writes s t (.page j.index) (.page (at'.map fun y => new y.2 y.1)) (.page j.index aus) ∧
        t.core.mgw.job = some { j with changed := j.changed + aus.length }) ∧
      (aus = [] → t.set = s.set ∧
        (∀ a ∈ t.core.ctp.queue ++ t.core.dlp.ctpLine, a.dir ≠ .read → a ∈ s.core.ctp.queue ++ s.core.dlp.ctpLine) ∧
        ((∃ l ∈ s.core.ctp.locks, l.holder = .request) →
          (∀ l ∈ s.core.ctp.locks, l.holder = .request → l.sector = .page j.index) →
          ∀ l ∈ t.core.ctp.locks, l.sector ≠ .page j.index))) ∧
  (∀ (s : State) (tag : Fin 16) (x : Sector) (j : Job) (k : Nat) (rec : KeyRec),
    JobReads s tag.val x j (.key k) (.key rec) → j.stage = .writeKey → j.keyRecord = k →
    let down (n : Nat) : KeyRec :=
      if n = 0 then { live := false, unit := rec.unit, count := 0, wrapped := 0 } else { rec with count := n }
    ∃ t, exec (.catalogueReadComplete tag x) s = .next t ∧
      (∀ new : KeyRec,
        ((∃ p, j.req = .create p ∧ new = if p.share then { rec with count := rec.count + 1 }
            else { live := true, unit := p.unit, count := 1, wrapped := j.wrapped }) ∨
          ((∃ r, j.req = .delete r) ∨ ∃ a b, j.req = .join a b) ∧ rec.live = true ∧ new = down (rec.count - 1) ∨
          (∃ r, j.req = .purge r) ∧ rec.live = true ∧ j.recount < rec.count ∧ new = down j.recount) →
        Writes s t (.key k) (.key new) (.key k new.live) ∧ t.core.mgw.job = some { j with keyCount := new.count }) ∧
      (rec.live = false →
        (∀ r, j.req = .delete r → Ends s t (.done (leBytes 2 rec.count))) ∧
          ∀ a b, j.req = .join a b → Ends s t (.done (leBytes 4 j.changed)))) ∧
  ∀ (s : State) (tag : Fin 16) (x : Sector) (j : Job) (h : Header) (p : Policy),
    JobReads s tag.val x j .header (.header h) → j.stage = .writeHeader → j.req = .setPolicy p →
    ∃ t, exec (.catalogueReadComplete tag x) s = .next t ∧ Writes s t .header (.header { h with policy := p }) .none ∧
      t.core.mgw = s.core.mgw

/-- CATALOGUE_WRITE_COMPLETE: the notice, the release of the lock, then the request's next step. A map page's write makes
the cache entries of the AUs it changed invalid and keeps the others, and the segments in resolution that acted on the
page are stale; a descriptor's edit leaves no cache entry of its region; SEAL's and DELETE's write fixes the drain set,
the commands resolved to the region or forwarded by it, and with none SEAL ends DONE and DELETE goes on to the key record;
SET-POLICY's policy and FORMAT's catalogue come into force; FORMAT's first header write gives the header copy the new
identity, each record write asks for the next, and the last of them for the second header write; after a failed write the
last one outstanding ends FORMAT REFUSED(DRIVE), INCOMPLETE and ABSENT; DELETE ends with the count it left, and at count 0
no READY slot holds the record; a flag update's flag stands in every cache entry of its region, where the update serves
the command in resolution as its law says (R11, R12, R22, R23, R24, R30, R34, R54, R73, R83, R95, R96). The order of
FORMAT's records (assumption log 18), and that a walk between a FORWARD descriptor and its target is left out of the drain
set (assumption log 39), is the model's choice. -/
def Obligations.CatalogueWritesTakeEffect : Prop :=
  ∀ (s : State) (tag : Fin 16) (a : Access) (data : Sector) (n : Notice), s.core.dlp.link ≠ .lost →
    HoldsAccess s.core tag.val a → a.dir = .write data n →
    ∃ t, exec (.catalogueWriteComplete tag) s = .next t ∧ t.set = s.set ∧
      (a.owner = .request ∨ a.owner = .flagUpdate →
        ∀ l ∈ s.core.ctp.locks, l.sector = a.sector → l.since < s.core.ctp.seq → l ∉ t.core.ctp.locks) ∧
      (∀ j, a.owner = .request → s.core.mgw.job = some j →
        (∀ r, a.sector = .desc r → n = .edit r → j.stage = .writeDesc →
          (∀ c ∈ t.core.rsv.cache, ∀ w ∈ c.ways, ∀ e, w = some e → e.names r = false) ∧
          ((∃ on, j.req = .setLocked r on) ∨ j.req = .unseal r ∨ (∃ p w, j.req = .setFlags r p w) ∨
              (∃ bs, j.req = .writeArea r bs) →
            t.core.mgw.job = none ∧ t.core.mgw.response = { s.core.mgw.response with status := .done [] } ∧
              EventFlag.requestDone.inWord t.core.evu.flags = true) ∧
          (j.req = .seal r ∨ j.req = .delete r →
            let resolved (i : Nat) : Prop :=
              (∃ e ∈ s.core.txe.list, e.id = i ∧ ∃ g ∈ e.plan, g.region = some r ∨ g.forward = some r) ∨
                ∃ v g y q, s.core.rsv.current = some v ∧ v.cmd.id = i ∧ g ∈ v.segs ∧ g.entry = some y ∧ y.region = some q ∧
                  (q.region = r ∨ q.forward = some r)
            ((∃ i, resolved i) → t.core.mgw.response = s.core.mgw.response ∧
              ∃ ids, t.core.mgw.job = some { j with stage := .draining, drain := ids } ∧ ∀ i, i ∈ ids ↔ resolved i) ∧
            ((∀ i, ¬resolved i) →
              (j.req = .seal r → Ends s t (.done [])) ∧
                (j.req = .delete r → t.core.mgw.response = s.core.mgw.response ∧
                  t.core.mgw.job = some { j with stage := .writeKey, index := 0 })))) ∧
        (∀ p aus, a.sector = .page p → n = .page p aus → j.stage = .writePages →
          t.core.rsv.cache = (s.core.rsv.cache.map fun y =>
            { y with ways := y.ways.map (Option.filter fun e => !aus.contains e.au) }) ∧
          ∀ r : Resolution, s.core.rsv.current = some r → ∃ r' : Resolution, t.core.rsv.current = some r' ∧
            ∀ (i : Nat) (g : Seg), r.segs[i]? = some g → .page p ∈ g.used →
              ∃ g' : Seg, r'.segs[i]? = some g' ∧ g'.stale = true) ∧
        (∀ r k, j.req = .delete r → j.stage = .writeKey → a.sector = .key k → k = j.keyRecord → SlotsOk s.core.kst →
          t.core.mgw.job = none ∧ t.core.mgw.response = { s.core.mgw.response with status := .done (leBytes 2 j.keyCount) } ∧
            (j.keyCount = 0 → ∀ i < 24, (t.core.kst.slot i).state = .ready → (t.core.kst.slot i).record ≠ some k)) ∧
        ∀ p, j.req = .setPolicy p → j.stage = .writeHeader → a.sector = .header → n = .none →
          t.core.ctp.policy = some p ∧ t.core.mgw.job = none ∧
            t.core.mgw.response = { s.core.mgw.response with status := .done [] }) ∧
      (∀ j p, a.owner = .format → s.core.mgw.job = some j → j.req = .format p → j.stage = .formatLast → j.failed = false →
        t.core.ctp.state = .ready ∧ t.core.ctp.startUp = .ready ∧ t.core.ctp.policy = some p ∧ t.core.mgw.job = none ∧
          t.core.mgw.response = { s.core.mgw.response with status := .done [] }) ∧
      (∀ j p, a.owner = .format → s.core.mgw.job = some j → j.req = .format p → j.failed = false →
        j.stage = .formatFirst ∨ j.stage = .formatRecords →
        let asks (x : CatSector) (identity : Option (BitVec 64)) (y : CatContent) : Prop :=
          ∃ b ∈ t.core.ctp.queue ++ t.core.dlp.ctpLine, b.sector = x ∧ b.owner = .format ∧
            b.dir = .write (writtenSector s.core.kst.keys { s.core.ctp with identity := identity } x y) .none
        let next (x : CatSector) (y : CatContent) : Prop := asks x s.core.ctp.identity y ∧
          t.core.mgw.job = some { j with index := j.index + 1, outstanding := j.outstanding - 1 + 1 }
        t.core.mgw.response = s.core.mgw.response ∧ t.core.ctp.state = s.core.ctp.state ∧
        t.core.ctp.startUp = s.core.ctp.startUp ∧ t.core.ctp.policy = s.core.ctp.policy ∧ t.core.evu = s.core.evu ∧
        (j.stage = .formatFirst → t.core.ctp.identity = some j.identity ∧
          asks (.key 1) (some j.identity) (.key (KeyRec.blank 1)) ∧ asks (.key 2) (some j.identity) (.key (KeyRec.blank 1)) ∧
          t.core.mgw.job = some { j with stage := .formatRecords, index := 2, outstanding := 2 }) ∧
        (j.stage = .formatRecords → t.core.ctp.identity = s.core.ctp.identity ∧
          (j.index < 1023 → next (.key (j.index + 1)) (.key (KeyRec.blank 1))) ∧
          (1023 ≤ j.index → j.index < 5118 → next (.desc (j.index - 1022)) (.desc Desc.blank)) ∧
          (5118 ≤ j.index → j.index < 6211 → next (.page (j.index - 5118)) (.page (List.replicate 120 .unassigned))) ∧
          (6211 ≤ j.index → 1 < j.outstanding → t.core.mgw.job = some { j with outstanding := j.outstanding - 1 } ∧
            ∀ b ∈ t.core.ctp.queue ++ t.core.dlp.ctpLine, b ∈ s.core.ctp.queue ++ s.core.dlp.ctpLine) ∧
          (6211 ≤ j.index → j.outstanding ≤ 1 →
            asks .header s.core.ctp.identity
              (.header { complete := true, identity := j.identity, capacity := s.core.ctp.placement.usable, policy := p }) ∧
            t.core.mgw.job = some { j with stage := .formatLast, outstanding := 1 }))) ∧
      (∀ j p, a.owner = .format → s.core.mgw.job = some j → j.req = .format p → j.failed = true →
        (j.outstanding ≤ 1 → Ends s t (.refused .drive) ∧ t.core.ctp.identity = none ∧ t.core.ctp.policy = none ∧
          t.core.ctp.startUp = .incomplete ∧ t.core.ctp.state = .absent) ∧
        (1 < j.outstanding → t.core.mgw = { s.core.mgw with job := some { j with outstanding := j.outstanding - 1 } } ∧
          t.core.ctp.state = s.core.ctp.state)) ∧
      ∀ b played written d, FlagUpdateOk s.core → a.owner = .flagUpdate → n = .flags b played written d →
        ∀ c ∈ t.core.rsv.cache, ∀ w ∈ c.ways, ∀ e i, w = some e → e.region = some i → i.region = b →
          (played = true → i.played = true) ∧ (written = true → i.written = true)

/-! ### Resolution (chapters 3 and 4) -/

/-- RESOLUTION_START takes the command at the head of the resolution queue, on a link that is not LOST, and settles it as
far as nothing has to be read. Windows override the catalogue; outside READY what no window settles is refused NOT-READY;
a cache miss asks for the map page; a protected write is refused; a read of a recording whose key a READY slot holds is
handed to the TXE with that slot granted; a DISCARD range at or above RC is refused OUT-OF-RANGE (R58 to R62, R64, R65, R67,
R70, R71, R75, R80, R85, R86, R91). -/
def Obligations.ResolutionSettles : Prop :=
  ∀ (s : State) (x : Xfer) (rest : List Xfer), s.core.dlp.link ≠ .lost → s.core.rsv.current = none →
    s.core.rsv.queue = x :: rest →
    let au := x.start / 65536
    let last := x.start + x.count - 1
    let hit := (s.core.rsv.cacheSet au).hit au
    ∃ t : State, exec .resolutionStart s = .next t ∧ t.set = s.set ∧ t.core.rsv.queue = rest ∧
      let refused (st : LinkStatus) (lba : Nat) : Prop := t.core.rsv.current = none ∧ t.core.txe = s.core.txe ∧
        t.core.kst = s.core.kst ∧ t.core.rlp.linkList = s.core.rlp.linkList ++ [.completion x.tag st] ∧
        t.core.evu.lastRefusal = some { tag := x.tag, status := st, lba := lba }
      (∀ (pre : List (Nat × Nat)) (l n : Nat) (post : List (Nat × Nat)), x.kind = .discard →
        x.ranges = pre ++ (l, n) :: post → n ≠ 0 →
        s.core.ctp.placement.reported ≤ l + n - 1 →
        (∀ p ∈ pre, p.2 = 0 ∨ p.1 + p.2 - 1 < s.core.ctp.placement.reported) → refused .outOfRange l) ∧
      (x.kind = .read ∨ x.kind = .write → 1 ≤ x.count →
        (windowFor s.set.windows au = some .noAccess →
          refused (.refused .noAccess) x.start ∧ EventFlag.accessRefusal.inWord t.core.evu.flags = true) ∧
        (windowFor s.set.windows au = some .clearProtected → x.kind = .write →
          refused (.refused .protect) x.start ∧ EventFlag.protectRefusal.inWord t.core.evu.flags = true) ∧
        (x.count ≤ 65536 → (∀ u : Nat, au ≤ u → u ≤ last / 65536 → windowFor s.set.windows u = some .clear) →
          t.core.rsv.current = none ∧ t.core.rsv.cache = s.core.rsv.cache ∧ t.core.kst = s.core.kst ∧
            ∃ e : TxEntry, t.core.txe.list = s.core.txe.list ++ [e] ∧ e.id = x.id ∧ e.tag = x.tag ∧ e.kind = x.kind ∧
              e.state = .waitingRange ∧ (e.plan.map PlanSeg.count).sum = x.count ∧
              (∀ p ∈ e.plan, p.disp = .clear ∧ p.slot = none ∧ p.ctx = none ∧ 1 ≤ p.count ∧
                (p.first + p.count - 1) / 65536 = p.first / 65536) ∧
              ∀ l : Nat, x.start ≤ l → l ≤ last → ∃ p ∈ e.plan, p.first ≤ l ∧ l < p.first + p.count) ∧
        (windowFor s.set.windows au = none →
          (s.core.ctp.state ≠ .ready → refused (.refused .notReady) x.start ∧ t.core.rsv.cache = s.core.rsv.cache ∧
            t.core.evu.flags = s.core.evu.flags) ∧
          (s.core.ctp.state = .ready → hit = none → t.core.rlp = s.core.rlp ∧ t.core.txe = s.core.txe ∧
            t.core.rsv.cache = s.core.rsv.cache.modify (au % 16) (fun c : CacheSet => { c with counter := (c.counter + 1) % 4 }) ∧
            (∃ r : Resolution, t.core.rsv.current = some r ∧ r.cmd = x ∧ r.phase = .walking 0) ∧
            ∃ a ∈ t.core.ctp.queue ++ t.core.dlp.ctpLine, a.sector = .page (au / 120) ∧ a.dir = .read ∧ a.owner = .walk) ∧
          (∀ e : CacheEntry, s.core.ctp.state = .ready → hit = some e → x.kind = .write →
            (e.protect = true ∨ ∃ i : RegionInfo, e.region = some i ∧ (i.sealed = true ∨ i.locked = true)) →
            refused (.refused .protect) x.start ∧ EventFlag.protectRefusal.inWord t.core.evu.flags = true) ∧
          ∀ (e : CacheEntry) (i : RegionInfo) (j : Nat), s.core.ctp.state = .ready → hit = some e → x.kind = .read →
            last / 65536 = au → e.region = some i →
            i.kind = .recording → i.played = true → s.core.kst.holding i.key = some j →
            (s.core.kst.slot j).state = .ready → (s.core.kst.slot j).unit = i.unit →
            t.core.rsv.current = none ∧ t.core.rlp.linkList = s.core.rlp.linkList ∧ t.core.kst = s.core.kst.grant j ∧
              ∃ y : TxEntry, t.core.txe.list = s.core.txe.list ++ [y] ∧ y.id = x.id ∧ y.state = .waitingRange ∧
                y.plan = [{ first := x.start, count := x.count, disp := .cipher, slot := some j, unit := i.unit, ctx := none,
                            region := some i.region, forward := i.forward, ringTime := none, limit := none, parts := [],
                            reported := false }]))

/-- SLOT_WAKE answers the request in WAITING-SLOT once a slot can be chosen: a miss takes the lowest EMPTY slot, else the
head of the reuse list, which becomes LOADING, and asks for the key record; with none to choose nothing changes, by the
model's choice (assumption log 5). KEY_LOAD_REREAD takes the new read of a load that a lock made read again (R91 to R94). -/
def Obligations.SlotRequestsAnswered : Prop :=
  (∀ (s : State) (r : Resolution) (i : Nat), s.core.dlp.link ≠ .lost → SlotsOk s.core.kst → s.core.rsv.current = some r →
      r.phase = .slotWait i →
      (s.core.kst.reuse = [] → (∀ m < 24, (s.core.kst.slot m).state ≠ .empty) →
        ∃ t, exec .slotWake s = .next t ∧ t.core.kst = s.core.kst ∧ t.core.rsv = s.core.rsv ∧ t.core.rlp = s.core.rlp) ∧
      ∀ g info j, r.segs[i]? = some g → g.entry.bind CacheEntry.region = some info → g.disp = some .cipher →
        g.slot = none → (∀ m < 24, (s.core.kst.slot m).serves ≠ some info.key) →
        ((s.core.kst.slot j).state = .empty ∧ j < 24 ∧ (∀ m < j, (s.core.kst.slot m).state ≠ .empty) ∨
          (∀ m < 24, (s.core.kst.slot m).state ≠ .empty) ∧ s.core.kst.reuse.head? = some j) →
        ∃ t, exec .slotWake s = .next t ∧ t.set = s.set ∧ t.core.rlp = s.core.rlp ∧
          (t.core.kst.slot j).state = .loading ∧ (t.core.kst.slot j).record = some info.key ∧
          (t.core.kst.slot j).key = none ∧ (t.core.kst.slot j).use = 0 ∧ j ∉ t.core.kst.reuse ∧
          (∀ m, m ≠ j → t.core.kst.slot m = s.core.kst.slot m) ∧
          t.core.rsv.current = some { r with phase := .loadWait i j true } ∧
          ∃ a ∈ t.core.ctp.queue ++ t.core.dlp.ctpLine, a.sector = .key info.key ∧ a.dir = .read ∧ a.owner = .keyLoad j) ∧
  ∀ (s : State) (j : Fin 24) (k : Nat), s.core.dlp.link ≠ .lost → s.core.kst.slots.length = 24 →
    (s.core.kst.slot j.val).state = .loading → (s.core.kst.slot j.val).record = some k →
    (s.core.kst.slot j.val).reread = true → (∀ l ∈ s.core.ctp.locks, l.sector ≠ .key k) →
    ∃ t, exec (.keyLoadReread j) s = .next t ∧ t.set = s.set ∧
      t.core.kst.slot j.val = { s.core.kst.slot j.val with reread := false } ∧
      (∀ m, m ≠ j.val → t.core.kst.slot m = s.core.kst.slot m) ∧ t.core.rsv = s.core.rsv ∧ t.core.rlp = s.core.rlp ∧
      ∃ a ∈ t.core.ctp.queue ++ t.core.dlp.ctpLine, a.sector = .key k ∧ a.dir = .read ∧ a.owner = .keyLoad j.val

/-- LOCK_ENTRY: the first waiting lock request that can enter does, and its holder's read of the sector is taken; one whose
sector is listed, or that finds 2 entries, stays (R14). DRAIN_END: SEAL ends DONE, DELETE goes on to its key record (R34,
R49, R54). FORMAT_DRAIN_END: the contexts are FREE, the slots EMPTY, a fresh identity is drawn, and the FORMATTING header
write is taken (R21, R89). DETACH_WAIT_END: the context is FREE; RING-DETACH ends DONE, DELETE goes on (R113 to R115). A wait that has not
ended changes nothing (assumption log 5). -/
def Obligations.WaitsEnd : Prop :=
  (∀ (s : State) (pre post : List LockWait) (w : LockWait), s.core.dlp.link ≠ .lost →
      s.core.ctp.lockWait = pre ++ w :: post → s.core.ctp.locks.length < 2 →
      (∀ l ∈ s.core.ctp.locks, l.sector ≠ w.sector) → (∀ v ∈ pre, ∃ l ∈ s.core.ctp.locks, l.sector = v.sector) →
      (w.holder = .request ∨ w.holder = .resolver ∧ ∃ b, w.sector = .desc b) →
      ∃ t, exec .lockEntry s = .next t ∧ t.set = s.set ∧ t.core.ctp.lockWait = pre ++ post ∧
        t.core.ctp.locks = s.core.ctp.locks ++ [{ sector := w.sector, holder := w.holder, since := s.core.ctp.seq }] ∧
        ∃ a ∈ t.core.ctp.queue ++ t.core.dlp.ctpLine, a.sector = w.sector ∧ a.dir = .read ∧ a.seq = s.core.ctp.seq ∧
          a.owner = (if w.holder = .request then .request else .flagUpdate)) ∧
  (∀ s : State, s.core.dlp.link ≠ .lost →
      2 ≤ s.core.ctp.locks.length ∨ (∀ v ∈ s.core.ctp.lockWait, ∃ l ∈ s.core.ctp.locks, l.sector = v.sector) →
      ∃ t, exec .lockEntry s = .next t ∧ t.core.ctp.locks = s.core.ctp.locks ∧ t.core.ctp.lockWait = s.core.ctp.lockWait) ∧
  (∀ (s : State) (j : Job) (r : Nat), s.core.dlp.link ≠ .lost → s.core.mgw.job = some j → j.stage = .draining →
      ((∃ i ∈ j.drain, i ∈ allCommands s.core) → exec .drainEnd s = .next s) ∧
      ((∀ i ∈ j.drain, i ∉ allCommands s.core) → ∃ t, exec .drainEnd s = .next t ∧ t.set = s.set ∧
        (j.req = .seal r → t.core.mgw.job = none ∧ EventFlag.requestDone.inWord t.core.evu.flags = true ∧
          t.core.mgw.response = { s.core.mgw.response with status := .done [] }) ∧
        (j.req = .delete r → t.core.mgw.job = some { j with stage := .writeKey, index := 0 } ∧
          t.core.mgw.response = s.core.mgw.response))) ∧
  (∀ (s : State) (j : Job) (p : Policy), s.core.dlp.link ≠ .lost → s.core.mgw.job = some j → j.req = .format p →
      j.stage = .formatDrain → s.core.kst.slots.length = 24 → (∀ i ∈ j.drain, i ∉ allCommands s.core) →
      ∃ t i, exec .formatDrainEnd s = .next t ∧ t.set = s.set ∧ (∀ x, ringCtx x t.core = none) ∧
        (∀ x ∈ t.core.kst.slots, x = Slot.emptySlot) ∧ t.core.kst.reuse = [] ∧ t.core.kst.keys = s.core.kst.keys ∧
        t.core.kst.lastIdentity = some i ∧ s.core.kst.lastIdentity ≠ some i ∧
        ∃ a ∈ t.core.ctp.queue ++ t.core.dlp.ctpLine, a.sector = .header ∧ a.owner = .format ∧
          a.dir = .write (writtenSector s.core.kst.keys s.core.ctp .header
            (.header { complete := false, identity := i, capacity := s.core.ctp.placement.usable, policy := p })) .none) ∧
  ∀ (s : State) (j : Job) (r : Nat), s.core.dlp.link ≠ .lost → s.core.mgw.job = some j → j.stage = .detaching →
    (ctxHeld j.ctx s.core = true → exec .detachWaitEnd s = .next s) ∧
    (ctxHeld j.ctx s.core = false → ∃ t, exec .detachWaitEnd s = .next t ∧ t.set = s.set ∧ ringCtx j.ctx t.core = none ∧
      (∀ y, y ≠ j.ctx → ringCtx y t.core = ringCtx y s.core) ∧
      (j.req = .ringDetach r → t.core.mgw.job = none ∧ EventFlag.requestDone.inWord t.core.evu.flags = true ∧
        t.core.mgw.response = { s.core.mgw.response with status := .done [] }) ∧
      (j.req = .delete r → t.core.mgw.job = some { j with stage := .writeDesc, index := 0 } ∧
        t.core.mgw.response = s.core.mgw.response))

/-! ### Transfers (chapter 6) -/

/-- MOVE_ADMISSION admits the entry of its tag once its blocker set is empty, and not before: a READ of a CLEAR segment
asks for its first piece, which ends at the next multiple of 128; a WRITE draws it; a DISCARD with no CLEAR segment
completes GOOD, and one with such segments sends one drive discard that lists them. A ring READ takes the clock and its
part list, and raises RING-EXPIRED where an expired chunk is touched; with no DATA part it delivers zeros and completes
(R117, R118, R124, R133, R135, R136, R138, R139, R140, R145). An entry that may not move stays (assumption log 5). That
the zeros of a ring READ with no DATA part are one delivery is the model's choice (assumption log 32). -/
def Obligations.MoveAdmissionMoves : Prop :=
  (∀ (s : State) (tag : CmdTag),
      (∀ e ∈ s.core.txe.list, e.tag = tag → e.state = .waitingRange → e.blockers ≠ []) →
      exec (.moveAdmission tag) s = .next s) ∧
  ∀ (s : State) (tag : CmdTag) (e : TxEntry), s.core.dlp.link ≠ .lost → (s.core.txe.list.map TxEntry.id).Nodup →
    admissible tag s.core = some e → e.asked = false → e.onLink = false → e.out = [] →
    ∃ t, exec (.moveAdmission tag) s = .next t ∧ t.set = s.set ∧
      (∀ g, e.plan = [g] → g.disp = .clear → g.ctx = none → 1 ≤ g.count →
        let n := min g.count (128 - g.first % 128)
        (e.kind = .read → t.core.rlp = s.core.rlp ∧ t.core.evu = s.core.evu ∧
          t.core.dlp = { s.core.dlp with txeLine := s.core.dlp.txeLine ++
            [{ id := e.id, kind := .read, lba := g.first, count := n, data := [], ranges := [] }] } ∧
          ∃ e', findTx e.id t.core = some e' ∧ e'.state = .moving ∧ e'.asked = true) ∧
        (e.kind = .write → t.core.dlp = s.core.dlp ∧ t.core.evu = s.core.evu ∧
          t.core.rlp = { s.core.rlp with linkList := s.core.rlp.linkList ++ [.draw e.tag (.writePiece e.id) n] } ∧
          ∃ e', findTx e.id t.core = some e' ∧ e'.state = .moving ∧ e'.onLink = true)) ∧
      (e.kind = .discard →
        let ranges := (e.plan.filter fun g => decide (g.disp = .clear)).map fun g => (g.first, g.count)
        (ranges = [] → t.core.rings = s.core.rings ∧ t.core.dlp = s.core.dlp ∧
          t.core.rlp.linkList = s.core.rlp.linkList ++ [.completion e.tag .good] ∧
          ∀ e' ∈ t.core.txe.list, e'.id ≠ e.id) ∧
        (∀ l n rs, ranges = (l, n) :: rs → t.core.rlp = s.core.rlp ∧ ∃ q, q.id = e.id ∧ q.kind = .discard ∧
          q.ranges = ranges ∧ q.count = (ranges.length + 63) / 64 ∧
          t.core.dlp = { s.core.dlp with txeLine := s.core.dlp.txeLine ++ [q] }) ∧
        ∀ g x k, e.plan = [g] → g.disp = .clear → g.ctx = some x → ringCtx x s.core = some k →
          ringCtx x t.core = some (k.afterDiscard g.first g.count)) ∧
      ∀ g x k, e.kind = .read → e.plan = [g] → g.disp = .cipher → g.ctx = some x → ringCtx x s.core = some k → 1 ≤ g.count →
        (EventFlag.ringExpired.inWord t.core.evu.flags = true ↔ EventFlag.ringExpired.inWord s.core.evu.flags = true ∨
          touchesExpired k s.set.clock g.first g.count = true) ∧
        ((∃ p ∈ partList k s.set.clock g.first g.count, p.data = true) →
          ∃ e', findTx e.id t.core = some e' ∧ e'.state = .moving ∧ e'.asked = true ∧
            e'.plan.map PlanSeg.ringTime = [some s.set.clock] ∧
            e'.plan.map PlanSeg.parts = [partList k s.set.clock g.first g.count]) ∧
        ((∀ p ∈ partList k s.set.clock g.first g.count, p.data = false) →
          t.core.rlp.linkList = s.core.rlp.linkList ++
            [.delivery e.tag (.transfer e.id) (List.replicate g.count zeroSector), .completion e.tag .good])

/-- The ends of the TXE's requests. A read piece hands the recorder its sectors of the segment, deciphered for a CIPHER
segment, zero-filled outside the DATA run; a merge read goes deciphered into a hold; the last write piece reports its
segment, changes its ring's records, lowers its slot's use count and completes the command GOOD; a drive discard completes
it GOOD. An ABANDONED entry leaves with no status (R98, R99, R121, R139 to R143, R144, R146, R154). That a READ piece is a
delivery of its own, with no zero-filled sectors of ZERO parts in it, is the model's choice (assumption log 32). -/
def Obligations.PiecesEnd : Prop :=
  ∀ (s : State) (tag : Fin 16) (q : TxReq) (e : TxEntry), HoldsTransfer s.core tag.val q → findTx q.id s.core = some e →
    (∀ c : Instr, (c = .writePieceComplete tag ∧ q.kind = .write ∨ c = .driveDiscardEnd tag ∧ q.kind = .discard ∨
        ∃ data : List Sector, q.kind = .read ∧ data.length = q.count ∧
          (c = .readPieceComplete tag data ∧ (∀ lba is, e.items ≠ .mergeRead lba :: is) ∨
            c = .mergeReadComplete tag data ∧ ∃ lba is, e.items = .mergeRead lba :: is)) →
      e.state = .abandoned → ∃ t, exec c s = .next t ∧ t.set = s.set ∧ t.core.rlp = s.core.rlp ∧
        (∀ e' ∈ t.core.txe.list, e'.id ≠ e.id) ∧
        t.core.dlp.table = s.core.dlp.table.filter fun r => decide (r.tag ≠ tag.val)) ∧
    (e.state = .moving →
      (q.kind = .discard → ∃ t, exec (.driveDiscardEnd tag) s = .next t ∧ t.set = s.set ∧
        t.core.rlp.linkList = s.core.rlp.linkList ++ [.completion e.tag .good] ∧ (∀ e' ∈ t.core.txe.list, e'.id ≠ e.id) ∧
        t.core.rings = s.core.rings ∧ t.core.dlp.table = s.core.dlp.table.filter fun r => decide (r.tag ≠ tag.val)) ∧
      ∀ g, e.plan[e.pos]? = some g → e.out = [] → e.onLink = false →
        (∀ lba n df dl is data, q.kind = .read → e.items = .piece lba n df dl :: is → data.length = q.count →
          data.length = n → 1 ≤ n → (g.disp = .cipher → 0 < g.unit ∧ g.unit ∣ n) →
          let clear := if g.disp = .cipher then cipherRun true (s.core.kst.keyOf g.slot) g.unit lba data else data
          let lo := max lba g.first
          ∃ t d, exec (.readPieceComplete tag data) s = .next t ∧ t.set = s.set ∧
            s.core.rlp.linkList ++ [.delivery e.tag (.transfer e.id) d] <+: t.core.rlp.linkList ∧
            d.length = min (lba + n - 1) g.last + 1 - lo ∧
            ∀ i < d.length, d[i]? =
              if df ≤ lo + i ∧ lo + i ≤ dl then clear[lo + i - lba]? else some zeroSector) ∧
        (∀ lba is p n a b data, q.kind = .read → e.kind = .write → e.items = .mergeRead lba :: .piece p n a b :: is →
          data.length = q.count → g.disp = .cipher →
          ∃ t e', exec (.mergeReadComplete tag data) s = .next t ∧ t.set = s.set ∧ findTx e.id t.core = some e' ∧
            e'.holds = e.holds ++ [(lba / 8, cipherRun true (s.core.kst.keyOf g.slot) g.unit lba data)] ∧
            t.core.rlp.linkList = s.core.rlp.linkList ++
              [.draw e.tag (.writePiece e.id) (min (p + n - 1) g.last + 1 - max p g.first)]) ∧
        ∀ lba n a b, q.kind = .write → e.kind = .write → e.items = [.piece lba n a b] → e.plan[e.pos + 1]? = none →
          (∀ i g', e.plan[i]? = some g' → i ≠ e.pos → g'.reported = true) → g.reported = false →
          ∃ t, exec (.writePieceComplete tag) s = .next t ∧ t.set = s.set ∧
            t.core.rlp.linkList = s.core.rlp.linkList ++ [.completion e.tag .good] ∧
            (∀ e' ∈ t.core.txe.list, e'.id ≠ e.id) ∧
            (∀ i, g.slot = some i → t.core.kst = s.core.kst.fall i) ∧ (g.slot = none → t.core.kst = s.core.kst) ∧
            ∀ x k tm l, g.ctx = some x → ringCtx x s.core = some k → g.ringTime = some tm → g.limit = some l →
              ringCtx x t.core = some (k.afterWrite l tm g.first g.count))

/-! ### What every step keeps -/

/-- Every step keeps the laws of the recorder-link command table and of the drive request table (R157, R176, R178). -/
def Obligations.LinkTablesKept : Prop :=
  ∀ s t : State, step s = .next t →
    (CommandTableOk s.core.rlp → CommandTableOk t.core.rlp) ∧ (DriveTableOk s.core.dlp → DriveTableOk t.core.dlp)

/-- Every step keeps the law of the key slots and the reuse list (R90 to R93, R96, R98). -/
def Obligations.SlotsKept : Prop := ∀ s t : State, SlotsOk s.core.kst → step s = .next t → SlotsOk t.core.kst

/-- Every step keeps the law of the range interlock, and two commands that conflict are never both MOVING (R132, R133). -/
def Obligations.InterlockKept : Prop :=
  ∀ s t : State, InterlockOk s.core → step s = .next t →
    InterlockOk t.core ∧
      ∀ e ∈ t.core.txe.list, ∀ e' ∈ t.core.txe.list, e.id ≠ e'.id → e.state = .moving → e'.state = .moving →
        conflicts e.kind e'.kind e.compared e'.compared = false

/-- Every step keeps the sector lock list to 2 entries and one per sector, and a request in progress to the record that
shows it (R14, R191). -/
def Obligations.LocksAndRequestKept : Prop :=
  ∀ s t : State, step s = .next t →
    (LockListOk s.core.ctp → LockListOk t.core.ctp) ∧ (RequestOk s.core.mgw → RequestOk t.core.mgw)

/-- Every step keeps the settings in their ranges, and every stamp at or below the clock with its fill mark at most 8,192
(R64, R106, R109, R163, R182). -/
def Obligations.RingsAndClockKept : Prop :=
  ∀ s t : State, SettingsOk s.set → RingsOk s → step s = .next t → SettingsOk t.set ∧ RingsOk t

/-- Every step keeps the law of the region cache: 16 sets of 4 ways, each AU at most once and in its own set. Every step
keeps the law of the flag update in progress: it has one access or lock request at most, which the command in resolution
waits for, its write carries that command's flag and a descriptor that has it, and each segment of a WRITE that resolved
to a region is CIPHER (R14, R69, R70, R72, R82, R83). -/
def Obligations.CacheKept : Prop :=
  ∀ s t : State, step s = .next t →
    (CacheOk s.core.rsv → CacheOk t.core.rsv) ∧ (FlagUpdateOk s.core → FlagUpdateOk t.core)

/-! ### What is written reads back -/

/-- Every content that belongs in a catalogue sector, written by the CTP under a tag key, reads back verified as that
content (R3 to R8, R11, R204, Tables 11-1 to 11-5). The digest is an uninterpreted constant (assumption log 3). That an
EMPTY descriptor whose key record is not 0 reads as good is the model's choice (assumption log 29), and so is the identity
used while the header copy is cleared (assumption log 37). -/
def Obligations.CatalogueSectorRoundTrip : Prop :=
  ∀ (k : Keys) (c : Ctp) (x : CatSector) (content : CatContent), content.fits x = true →
    verifySector (some k) c x (writtenSector (some k) c x content) = some content

/-- A run of whole data units that is enciphered and then deciphered under the same key at the same place is the run again
(R99 to R102). The cipher is an
uninterpreted bijection (assumption log 3). -/
def Obligations.CipherRoundTrip : Prop :=
  ∀ (key : BitVec 256) (u lba : Nat) (ss : List Sector), 0 < u → u ∣ ss.length →
    cipherRun true key u lba (cipherRun false key u lba ss) = ss
end

