-- ==== Sys2Proof/Laws/Config.lean ====
section
/-! SUPPORT. What the constants without a body are known to keep: a step of at least one leads away from where it
starts, and a key unwraps to what was wrapped under its own record number alone. -/

namespace Sys2Proof.Config

/-- One and a distance below the modulus less one never lead back. -/
theorem step_ne (x : BitVec 256) (n : Fin (2 ^ 256 - 2 + 1)) : x + 1 + BitVec.ofNat 256 n.val ≠ x := by
  intro e
  have h := n.isLt
  have e' : (1 : BitVec 256) + BitVec.ofNat 256 n.val = 0 := by
    rw [add_assoc] at e
    exact add_eq_left.mp e
  have t := congrArg BitVec.toNat e'
  have h1 : (1 : BitVec 256).toNat = 1 := rfl
  have h0 : (0 : BitVec 256).toNat = 0 := rfl
  rw [BitVec.toNat_add, BitVec.toNat_ofNat, h1, h0] at t
  omega

/-- The tag key and the wrapping key differ (R87). -/
theorem deriveTag_ne (root : BitVec 256) : deriveTag root ≠ deriveWrapping root := step_ne _ _

/-- Unwrapping under the number of another record does not give the key back (R88). -/
theorem unwrap_other (w : BitVec 256) (k k' : Nat) (h : k < 1024) (h' : k' < 1024) (n : k ≠ k') (x : BitVec 256) :
    ((keyWrap w).wrap k').symm ((keyWrap w).wrap k x) ≠ x := by
  intro e
  exact (keyWrap w).separate k k' h h' n x ((Equiv.symm_apply_eq _).mp e)

end Sys2Proof.Config
end

