-- ==== Sys2Proof/Laws/Formats.lean ====
section
/-! SUPPORT. A sealed sector: its tag verifies, and its fields below byte 496 are those of the content. -/

namespace Sys2Proof.Machine

/-- A field of `w` bytes lies within `w` bytes. -/
theorem field_lt (v o w : Nat) : field v o w < 2 ^ (8 * w) := Nat.mod_lt _ (Nat.two_pow_pos _)

/-- A field below byte 496 does not see what stands from byte 496 on. -/
theorem field_below (v t o w : Nat) (h : o + w ≤ 496) : field (v + t * 2 ^ 3968) o w = field v o w := by
  obtain ⟨r, hr⟩ : ∃ r, 3968 = 8 * o + (8 * w + r) := ⟨3968 - 8 * o - 8 * w, by omega⟩
  have e : t * 2 ^ 3968 = 2 ^ (8 * o) * (t * 2 ^ r * 2 ^ (8 * w)) := by rw [hr, pow_add, pow_add]; ring
  rw [field, field, e, Nat.add_mul_div_left _ _ (Nat.two_pow_pos _), Nat.add_mul_mod_self_right]

/-- A sealed sector is the content's first 496 bytes with the tag above them. -/
theorem sealSector_toNat (k : Keys) (lba : Nat) (i : BitVec 64) (v : Nat) :
    (sealSector (some k) lba i v).toNat =
      v % 2 ^ 3968 + (Config.integrityTag k.tag (tagged v) lba i).toNat * 2 ^ 3968 := by
  have h1 : v % 2 ^ 3968 < 2 ^ 3968 := Nat.mod_lt v (Nat.pow_pos (Nat.succ_pos 1))
  have h2 : (Config.integrityTag k.tag (BitVec.ofNat 3968 v) lba i).toNat < 2 ^ 128 := BitVec.isLt _
  simp only [sealSector, place, tagged, BitVec.toNat_ofNat]
  rw [show 8 * 16 = 128 from rfl, show 8 * 496 = 3968 from rfl, Nat.mod_eq_of_lt h2]
  apply Nat.mod_eq_of_lt
  have h3 : (Config.integrityTag k.tag (BitVec.ofNat 3968 v) lba i).toNat + 1 ≤ 2 ^ 128 := h2
  have h4 := Nat.mul_le_mul_right (2 ^ 3968) h3
  rw [← pow_add, Nat.add_mul, Nat.one_mul] at h4
  have h5 : (2 : Nat) ^ (128 + 3968) = 2 ^ 4096 := rfl
  omega

/-- The fields of a sealed sector below its tag are the content's. -/
theorem field_sealSector (k : Keys) (lba : Nat) (i : BitVec 64) (v o w : Nat) (h : o + w ≤ 496) :
    field (sealSector (some k) lba i v).toNat o w = field (v % 2 ^ 3968) o w := by
  rw [sealSector_toNat, field_below _ _ _ _ h]

/-- The tag of a sealed sector verifies. -/
theorem tagVerifies_sealSector (k : Keys) (lba : Nat) (i : BitVec 64) (v : Nat) :
    tagVerifies (some k) lba i (sealSector (some k) lba i v) = true := by
  have h1 : v % 2 ^ 3968 < 2 ^ 3968 := Nat.mod_lt v (Nat.pow_pos (Nat.succ_pos 1))
  have h2 := (Config.integrityTag k.tag (tagged v) lba i).isLt
  have ht : tagged (sealSector (some k) lba i v).toNat = tagged v := by
    rw [sealSector_toNat]
    apply BitVec.eq_of_toNat_eq
    simp only [tagged, BitVec.toNat_ofNat]
    rw [Nat.add_mul_mod_self_right, Nat.mod_mod]
  have hf : field (sealSector (some k) lba i v).toNat 496 16 = (Config.integrityTag k.tag (tagged v) lba i).toNat := by
    rw [sealSector_toNat, field, show 8 * 496 = 3968 from rfl, show 8 * 16 = 128 from rfl,
      Nat.add_mul_div_right _ _ (Nat.two_pow_pos 3968), Nat.div_eq_of_lt h1, Nat.zero_add, Nat.mod_eq_of_lt h2]
  simp only [tagVerifies, ht, hf, BitVec.ofNat_toNat, BitVec.setWidth_eq, decide_true]

/-- The decoders of the header, of descriptors and of key records read fields below byte 496 only. -/
theorem headerDecode_congr (v v' : Nat) (h : ∀ o w, o + w ≤ 496 → field v o w = field v' o w) :
    Header.decode v = Header.decode v' := by
  simp only [Header.decode, headerIdentity, h 0 8 (by decide), h 8 2 (by decide), h 16 8 (by decide), h 24 8 (by decide),
    h 32 1 (by decide)]

theorem descDecode_congr (v v' : Nat) (h : ∀ o w, o + w ≤ 496 → field v o w = field v' o w) :
    Desc.decode v = Desc.decode v' := by
  simp only [Desc.decode, decodeRingPart, decodeForward, h 0 1 (by decide), h 1 1 (by decide), h 2 1 (by decide),
    h 3 1 (by decide), h 4 2 (by decide), h 6 1 (by decide), h 7 1 (by decide), h 8 4 (by decide), h 12 2 (by decide),
    h 14 2 (by decide), h 16 2 (by decide), h 18 2 (by decide), h 20 256 (by decide)]

theorem keyDecode_congr (v v' : Nat) (h : ∀ o w, o + w ≤ 496 → field v o w = field v' o w) :
    KeyRec.decode v = KeyRec.decode v' := by
  simp only [KeyRec.decode, h 0 1 (by decide), h 1 1 (by decide), h 2 2 (by decide), h 8 32 (by decide)]

/-- Map entries do not see what stands above them. -/
theorem decodeEntries_below (n v t : Nat) : decodeEntries n (v + t * 2 ^ (32 * n)) = decodeEntries n v := by
  induction n generalizing v with
  | zero => rfl
  | succ n ih =>
    have e : t * 2 ^ (32 * (n + 1)) = t * 2 ^ (32 * n) * 2 ^ 32 := by rw [Nat.mul_succ, pow_add, mul_assoc]
    rw [decodeEntries, decodeEntries, e, Nat.add_mul_mod_self_right, Nat.add_mul_div_right _ _ (Nat.two_pow_pos _), ih]

/-- The decoder of a map page does not see what stands from byte 496 on. -/
theorem decodePage_below (p v t : Nat) : decodePage p (v + t * 2 ^ 3968) = decodePage p v := by
  have e : t * 2 ^ 3968 = t * 2 ^ 96 * 2 ^ (32 * Config.pageEntries) * 2 ^ 32 := by
    rw [mul_assoc, mul_assoc, ← pow_add, ← pow_add]; rfl
  rw [decodePage, decodePage, field_below _ _ _ _ (by decide), e, Nat.add_mul_div_right _ _ (Nat.two_pow_pos 32),
    decodeEntries_below]

end Sys2Proof.Machine
end

