-- ==== Sys2Proof/Laws/State.lean ====
section
/-! SUPPORT. One lemma per field per block update: an update changes its own block and no other. -/

namespace Sys2Proof.Machine

/-! ### `Core.onEvu` -/

@[simp] theorem Core.onEvu_evu (c : Core) (f : Evu → Evu) : (c.onEvu f).evu = f c.evu := rfl
@[simp] theorem Core.onEvu_rlp (c : Core) (f : Evu → Evu) : (c.onEvu f).rlp = c.rlp := rfl
@[simp] theorem Core.onEvu_rsv (c : Core) (f : Evu → Evu) : (c.onEvu f).rsv = c.rsv := rfl
@[simp] theorem Core.onEvu_ctp (c : Core) (f : Evu → Evu) : (c.onEvu f).ctp = c.ctp := rfl
@[simp] theorem Core.onEvu_kst (c : Core) (f : Evu → Evu) : (c.onEvu f).kst = c.kst := rfl
@[simp] theorem Core.onEvu_rings (c : Core) (f : Evu → Evu) : (c.onEvu f).rings = c.rings := rfl
@[simp] theorem Core.onEvu_txe (c : Core) (f : Evu → Evu) : (c.onEvu f).txe = c.txe := rfl
@[simp] theorem Core.onEvu_dlp (c : Core) (f : Evu → Evu) : (c.onEvu f).dlp = c.dlp := rfl
@[simp] theorem Core.onEvu_mgw (c : Core) (f : Evu → Evu) : (c.onEvu f).mgw = c.mgw := rfl

/-! ### `Core.onRlp` -/

@[simp] theorem Core.onRlp_evu (c : Core) (f : Rlp → Rlp) : (c.onRlp f).evu = c.evu := rfl
@[simp] theorem Core.onRlp_rlp (c : Core) (f : Rlp → Rlp) : (c.onRlp f).rlp = f c.rlp := rfl
@[simp] theorem Core.onRlp_rsv (c : Core) (f : Rlp → Rlp) : (c.onRlp f).rsv = c.rsv := rfl
@[simp] theorem Core.onRlp_ctp (c : Core) (f : Rlp → Rlp) : (c.onRlp f).ctp = c.ctp := rfl
@[simp] theorem Core.onRlp_kst (c : Core) (f : Rlp → Rlp) : (c.onRlp f).kst = c.kst := rfl
@[simp] theorem Core.onRlp_rings (c : Core) (f : Rlp → Rlp) : (c.onRlp f).rings = c.rings := rfl
@[simp] theorem Core.onRlp_txe (c : Core) (f : Rlp → Rlp) : (c.onRlp f).txe = c.txe := rfl
@[simp] theorem Core.onRlp_dlp (c : Core) (f : Rlp → Rlp) : (c.onRlp f).dlp = c.dlp := rfl
@[simp] theorem Core.onRlp_mgw (c : Core) (f : Rlp → Rlp) : (c.onRlp f).mgw = c.mgw := rfl

/-! ### `Core.onRsv` -/

@[simp] theorem Core.onRsv_evu (c : Core) (f : Rsv → Rsv) : (c.onRsv f).evu = c.evu := rfl
@[simp] theorem Core.onRsv_rlp (c : Core) (f : Rsv → Rsv) : (c.onRsv f).rlp = c.rlp := rfl
@[simp] theorem Core.onRsv_rsv (c : Core) (f : Rsv → Rsv) : (c.onRsv f).rsv = f c.rsv := rfl
@[simp] theorem Core.onRsv_ctp (c : Core) (f : Rsv → Rsv) : (c.onRsv f).ctp = c.ctp := rfl
@[simp] theorem Core.onRsv_kst (c : Core) (f : Rsv → Rsv) : (c.onRsv f).kst = c.kst := rfl
@[simp] theorem Core.onRsv_rings (c : Core) (f : Rsv → Rsv) : (c.onRsv f).rings = c.rings := rfl
@[simp] theorem Core.onRsv_txe (c : Core) (f : Rsv → Rsv) : (c.onRsv f).txe = c.txe := rfl
@[simp] theorem Core.onRsv_dlp (c : Core) (f : Rsv → Rsv) : (c.onRsv f).dlp = c.dlp := rfl
@[simp] theorem Core.onRsv_mgw (c : Core) (f : Rsv → Rsv) : (c.onRsv f).mgw = c.mgw := rfl

/-! ### `Core.onCtp` -/

@[simp] theorem Core.onCtp_evu (c : Core) (f : Ctp → Ctp) : (c.onCtp f).evu = c.evu := rfl
@[simp] theorem Core.onCtp_rlp (c : Core) (f : Ctp → Ctp) : (c.onCtp f).rlp = c.rlp := rfl
@[simp] theorem Core.onCtp_rsv (c : Core) (f : Ctp → Ctp) : (c.onCtp f).rsv = c.rsv := rfl
@[simp] theorem Core.onCtp_ctp (c : Core) (f : Ctp → Ctp) : (c.onCtp f).ctp = f c.ctp := rfl
@[simp] theorem Core.onCtp_kst (c : Core) (f : Ctp → Ctp) : (c.onCtp f).kst = c.kst := rfl
@[simp] theorem Core.onCtp_rings (c : Core) (f : Ctp → Ctp) : (c.onCtp f).rings = c.rings := rfl
@[simp] theorem Core.onCtp_txe (c : Core) (f : Ctp → Ctp) : (c.onCtp f).txe = c.txe := rfl
@[simp] theorem Core.onCtp_dlp (c : Core) (f : Ctp → Ctp) : (c.onCtp f).dlp = c.dlp := rfl
@[simp] theorem Core.onCtp_mgw (c : Core) (f : Ctp → Ctp) : (c.onCtp f).mgw = c.mgw := rfl

/-! ### `Core.onKst` -/

@[simp] theorem Core.onKst_evu (c : Core) (f : Kst → Kst) : (c.onKst f).evu = c.evu := rfl
@[simp] theorem Core.onKst_rlp (c : Core) (f : Kst → Kst) : (c.onKst f).rlp = c.rlp := rfl
@[simp] theorem Core.onKst_rsv (c : Core) (f : Kst → Kst) : (c.onKst f).rsv = c.rsv := rfl
@[simp] theorem Core.onKst_ctp (c : Core) (f : Kst → Kst) : (c.onKst f).ctp = c.ctp := rfl
@[simp] theorem Core.onKst_kst (c : Core) (f : Kst → Kst) : (c.onKst f).kst = f c.kst := rfl
@[simp] theorem Core.onKst_rings (c : Core) (f : Kst → Kst) : (c.onKst f).rings = c.rings := rfl
@[simp] theorem Core.onKst_txe (c : Core) (f : Kst → Kst) : (c.onKst f).txe = c.txe := rfl
@[simp] theorem Core.onKst_dlp (c : Core) (f : Kst → Kst) : (c.onKst f).dlp = c.dlp := rfl
@[simp] theorem Core.onKst_mgw (c : Core) (f : Kst → Kst) : (c.onKst f).mgw = c.mgw := rfl

/-! ### `Core.onRings` -/

@[simp] theorem Core.onRings_evu (c : Core) (f : List (Option RingCtx) → List (Option RingCtx)) : (c.onRings f).evu = c.evu := rfl
@[simp] theorem Core.onRings_rlp (c : Core) (f : List (Option RingCtx) → List (Option RingCtx)) : (c.onRings f).rlp = c.rlp := rfl
@[simp] theorem Core.onRings_rsv (c : Core) (f : List (Option RingCtx) → List (Option RingCtx)) : (c.onRings f).rsv = c.rsv := rfl
@[simp] theorem Core.onRings_ctp (c : Core) (f : List (Option RingCtx) → List (Option RingCtx)) : (c.onRings f).ctp = c.ctp := rfl
@[simp] theorem Core.onRings_kst (c : Core) (f : List (Option RingCtx) → List (Option RingCtx)) : (c.onRings f).kst = c.kst := rfl
@[simp] theorem Core.onRings_rings (c : Core) (f : List (Option RingCtx) → List (Option RingCtx)) : (c.onRings f).rings = f c.rings := rfl
@[simp] theorem Core.onRings_txe (c : Core) (f : List (Option RingCtx) → List (Option RingCtx)) : (c.onRings f).txe = c.txe := rfl
@[simp] theorem Core.onRings_dlp (c : Core) (f : List (Option RingCtx) → List (Option RingCtx)) : (c.onRings f).dlp = c.dlp := rfl
@[simp] theorem Core.onRings_mgw (c : Core) (f : List (Option RingCtx) → List (Option RingCtx)) : (c.onRings f).mgw = c.mgw := rfl

/-! ### `Core.onTxe` -/

@[simp] theorem Core.onTxe_evu (c : Core) (f : Txe → Txe) : (c.onTxe f).evu = c.evu := rfl
@[simp] theorem Core.onTxe_rlp (c : Core) (f : Txe → Txe) : (c.onTxe f).rlp = c.rlp := rfl
@[simp] theorem Core.onTxe_rsv (c : Core) (f : Txe → Txe) : (c.onTxe f).rsv = c.rsv := rfl
@[simp] theorem Core.onTxe_ctp (c : Core) (f : Txe → Txe) : (c.onTxe f).ctp = c.ctp := rfl
@[simp] theorem Core.onTxe_kst (c : Core) (f : Txe → Txe) : (c.onTxe f).kst = c.kst := rfl
@[simp] theorem Core.onTxe_rings (c : Core) (f : Txe → Txe) : (c.onTxe f).rings = c.rings := rfl
@[simp] theorem Core.onTxe_txe (c : Core) (f : Txe → Txe) : (c.onTxe f).txe = f c.txe := rfl
@[simp] theorem Core.onTxe_dlp (c : Core) (f : Txe → Txe) : (c.onTxe f).dlp = c.dlp := rfl
@[simp] theorem Core.onTxe_mgw (c : Core) (f : Txe → Txe) : (c.onTxe f).mgw = c.mgw := rfl

/-! ### `Core.onDlp` -/

@[simp] theorem Core.onDlp_evu (c : Core) (f : Dlp → Dlp) : (c.onDlp f).evu = c.evu := rfl
@[simp] theorem Core.onDlp_rlp (c : Core) (f : Dlp → Dlp) : (c.onDlp f).rlp = c.rlp := rfl
@[simp] theorem Core.onDlp_rsv (c : Core) (f : Dlp → Dlp) : (c.onDlp f).rsv = c.rsv := rfl
@[simp] theorem Core.onDlp_ctp (c : Core) (f : Dlp → Dlp) : (c.onDlp f).ctp = c.ctp := rfl
@[simp] theorem Core.onDlp_kst (c : Core) (f : Dlp → Dlp) : (c.onDlp f).kst = c.kst := rfl
@[simp] theorem Core.onDlp_rings (c : Core) (f : Dlp → Dlp) : (c.onDlp f).rings = c.rings := rfl
@[simp] theorem Core.onDlp_txe (c : Core) (f : Dlp → Dlp) : (c.onDlp f).txe = c.txe := rfl
@[simp] theorem Core.onDlp_dlp (c : Core) (f : Dlp → Dlp) : (c.onDlp f).dlp = f c.dlp := rfl
@[simp] theorem Core.onDlp_mgw (c : Core) (f : Dlp → Dlp) : (c.onDlp f).mgw = c.mgw := rfl

/-! ### `Core.onMgw` -/

@[simp] theorem Core.onMgw_evu (c : Core) (f : Mgw → Mgw) : (c.onMgw f).evu = c.evu := rfl
@[simp] theorem Core.onMgw_rlp (c : Core) (f : Mgw → Mgw) : (c.onMgw f).rlp = c.rlp := rfl
@[simp] theorem Core.onMgw_rsv (c : Core) (f : Mgw → Mgw) : (c.onMgw f).rsv = c.rsv := rfl
@[simp] theorem Core.onMgw_ctp (c : Core) (f : Mgw → Mgw) : (c.onMgw f).ctp = c.ctp := rfl
@[simp] theorem Core.onMgw_kst (c : Core) (f : Mgw → Mgw) : (c.onMgw f).kst = c.kst := rfl
@[simp] theorem Core.onMgw_rings (c : Core) (f : Mgw → Mgw) : (c.onMgw f).rings = c.rings := rfl
@[simp] theorem Core.onMgw_txe (c : Core) (f : Mgw → Mgw) : (c.onMgw f).txe = c.txe := rfl
@[simp] theorem Core.onMgw_dlp (c : Core) (f : Mgw → Mgw) : (c.onMgw f).dlp = c.dlp := rfl
@[simp] theorem Core.onMgw_mgw (c : Core) (f : Mgw → Mgw) : (c.onMgw f).mgw = f c.mgw := rfl

/-! ### `State.onCore` -/

@[simp] theorem State.onCore_pending (s : State) (f : Core → Core) : (s.onCore f).pending = s.pending := rfl
@[simp] theorem State.onCore_set (s : State) (f : Core → Core) : (s.onCore f).set = s.set := rfl
@[simp] theorem State.onCore_core (s : State) (f : Core → Core) : (s.onCore f).core = f s.core := rfl

end Sys2Proof.Machine
end

