-- ==== Sys2Proof/Laws/Ops.lean ====
section
/-! SUPPORT. What the shared operations can do, each said once: what changes, and that nothing else does. -/

namespace Sys2Proof.Machine

/-! ### Events -/

/-- Raising a flag changes the Event Unit alone. -/
theorem raiseFlag_eq (g : Settings) (f : EventFlag) (c : Core) : raiseFlag g f c = { c with evu := c.evu.raise g f } := rfl

/-- Raising a flag under a condition changes the Event Unit alone. -/
theorem raiseWhen_eq (g : Settings) (b : Bool) (f : EventFlag) (c : Core) :
    raiseWhen g b f c = { c with evu := if b then c.evu.raise g f else c.evu } := by
  cases b <;> rfl

/-! ### Statuses and exchanges -/

/-- A status marks the command's entry and joins the link list. -/
theorem giveStatus_eq (tag : CmdTag) (st : LinkStatus) (c : Core) :
    giveStatus tag st c = { c with rlp := { c.rlp with
      table := c.rlp.table.map fun e => if e.tag = tag then { e with state := .statusHeld, status := some st } else e
      linkList := c.rlp.linkList ++ [.completion tag st] } } := rfl

/-- A refusal also replaces the last-refusal record. -/
theorem giveRefusal_eq (tag : CmdTag) (st : LinkStatus) (lba : Nat) (c : Core) :
    giveRefusal tag st lba c = { c with
      evu := { c.evu with lastRefusal := some { tag := tag, status := st, lba := lba } }
      rlp := { c.rlp with
        table := c.rlp.table.map fun e => if e.tag = tag then { e with state := .statusHeld, status := some st } else e
        linkList := c.rlp.linkList ++ [.completion tag st] } } := rfl

/-! ### Use counts -/

/-- Lowering the grants of segments changes the Key Store alone. -/
theorem lowerGrants_eq (segs : List Seg) (c : Core) : ∃ k, lowerGrants segs c = { c with kst := k } := by
  induction segs generalizing c with
  | nil => exact ⟨c.kst, rfl⟩
  | cons s segs ih =>
    simp only [lowerGrants, List.foldl_cons] at ih ⊢
    split
    · obtain ⟨k, hk⟩ := ih (c.onKst fun k => k.fall _); exact ⟨k, hk⟩
    · exact ih c

/-- Segments without a slot lower nothing. -/
theorem lowerGrants_none (segs : List Seg) (c : Core) (h : ∀ s ∈ segs, s.slot = none) : lowerGrants segs c = c := by
  induction segs generalizing c with
  | nil => rfl
  | cons s segs ih =>
    simp only [lowerGrants, List.foldl_cons, h s (by simp)] at ih ⊢
    exact ih c fun s hs => h s (by simp [hs])

/-- Reporting the segments of a plan changes the Key Store alone. -/
theorem releaseSlots_eq (plan : List PlanSeg) (c : Core) : ∃ k, releaseSlots plan c = { c with kst := k } := by
  induction plan generalizing c with
  | nil => exact ⟨c.kst, rfl⟩
  | cons s plan ih =>
    simp only [releaseSlots, List.foldl_cons] at ih ⊢
    split
    · split
      · exact ih c
      · obtain ⟨k, hk⟩ := ih (c.onKst fun k => k.fall _); exact ⟨k, hk⟩
    · exact ih c

/-- Segments reported already, or without a slot, are not reported again. -/
theorem releaseSlots_none (plan : List PlanSeg) (c : Core) (h : ∀ s ∈ plan, s.slot = none ∨ s.reported = true) :
    releaseSlots plan c = c := by
  induction plan generalizing c with
  | nil => rfl
  | cons s plan ih =>
    have hs := h s (by simp)
    simp only [releaseSlots, List.foldl_cons] at ih ⊢
    split
    · rename_i i hi
      simp only [hi, reduceCtorEq, false_or] at hs
      simp only [hs, if_true]
      exact ih c fun s hs => h s (by simp [hs])
    · exact ih c fun s hs => h s (by simp [hs])

/-! ### The transfer list -/

/-- The entry found has the number asked for. -/
theorem findTx_id {id : Nat} {c : Core} {e : TxEntry} (h : findTx id c = some e) : e.id = id := by
  simpa using List.find?_some h

/-- After a change that keeps numbers, the entry found is the changed one. -/
theorem findTx_updateTx {id : Nat} {f : TxEntry → TxEntry} {c : Core} {e : TxEntry} (hf : ∀ x, (f x).id = x.id)
    (h : findTx id c = some e) : findTx id (updateTx id f c) = some (f e) := by
  have hid := findTx_id h
  have hcomp : ((fun x : TxEntry => decide (x.id = id)) ∘ fun x => if x.id = id then f x else x) =
      fun x => decide (x.id = id) := by
    funext x; simp only [Function.comp]; split <;> simp [*]
  simp only [findTx] at h
  simp only [findTx, updateTx, Core.onTxe_txe, List.find?_map, hcomp, h, Option.map_some, hid, if_true]

/-- Changing an entry changes the transfer list alone. -/
theorem updateTx_eq (id : Nat) (f : TxEntry → TxEntry) (c : Core) :
    updateTx id f c = { c with txe := { c.txe with list := c.txe.list.map fun e => if e.id = id then f e else e } } := rfl

/-- An entry that leaves is in the list no more. -/
theorem dropTx_gone (id : Nat) (c : Core) : ∀ e ∈ (dropTx id c).txe.list, e.id ≠ id := by
  intro e he
  simp only [dropTx, Core.onTxe_txe, List.mem_map, List.mem_filter, decide_eq_true_eq] at he
  obtain ⟨x, ⟨-, hx⟩, rfl⟩ := he
  exact hx

/-- A command that completes leaves the transfer list, and its status joins the link list. -/
theorem completeTransfer_eq (st : LinkStatus) (e : TxEntry) (c : Core) :
    ∃ k, completeTransfer st e c = giveStatus e.tag st (dropTx e.id { c with kst := k }) := by
  obtain ⟨k, hk⟩ := releaseSlots_eq e.plan c
  exact ⟨k, by rw [completeTransfer, leaveTransfer, hk]⟩

/-! ### Catalogue accesses -/

/-- Taking an access adds it to the tail of the queue under the next number. -/
theorem takeAccess_eq (x : CatSector) (dir : AccessDir) (o : AccessOwner) (c : Core) :
    takeAccess x dir o c = { c with ctp := { c.ctp with
      queue := c.ctp.queue ++ [{ seq := c.ctp.seq, sector := x, dir := dir, owner := o }], seq := c.ctp.seq + 1 } } := rfl

/-- On a link that is not LOST, an access that goes ahead moves to the CTP line. -/
theorem goAhead_of_not_lost (g : Settings) (a : Access) (c : Core) (h : c.dlp.link ≠ .lost) :
    goAhead g a c = { c with ctp := { c.ctp with queue := c.ctp.queue.erase a }
                             dlp := { c.dlp with ctpLine := c.dlp.ctpLine ++ [a] } } := by
  have : (c.onCtp fun t => { t with queue := t.queue.erase a }).dlp.link ≠ .lost := h
  rw [goAhead, if_neg this]; rfl

/-- On a link that is not LOST, the pump moves accesses from the queue to the CTP line, loses none, and changes nothing
else. -/
theorem pumpSome_of_not_lost (g : Settings) (n : Nat) (c : Core) (h : c.dlp.link ≠ .lost) :
    ∃ q l, pumpSome g n c = { c with ctp := { c.ctp with queue := q }, dlp := { c.dlp with ctpLine := l } } ∧
      ∀ a, a ∈ q ++ l ↔ a ∈ c.ctp.queue ++ c.dlp.ctpLine := by
  induction n generalizing c with
  | zero => exact ⟨_, _, rfl, fun _ => Iff.rfl⟩
  | succ n ih =>
    simp only [pumpSome]
    cases hn : nextAhead c with
    | none => exact ⟨_, _, rfl, fun _ => Iff.rfl⟩
    | some b =>
      have hb : b ∈ c.ctp.queue := by
        simp only [nextAhead] at hn
        split at hn
        · exact List.mem_of_find?_eq_some hn
        · cases hn
      simp only [goAhead_of_not_lost g b c h]
      obtain ⟨q, l, he, hm⟩ := ih { c with ctp := { c.ctp with queue := c.ctp.queue.erase b }
                                           dlp := { c.dlp with ctpLine := c.dlp.ctpLine ++ [b] } } h
      refine ⟨q, l, by rw [he], fun a => ?_⟩
      rw [hm]
      have hp : ∀ a, a ∈ c.ctp.queue ↔ a = b ∨ a ∈ c.ctp.queue.erase b := fun a => by
        rw [(List.perm_cons_erase hb).mem_iff, List.mem_cons]
      simp only [List.mem_append, List.mem_singleton, hp a]
      tauto

theorem pump_of_not_lost (g : Settings) (c : Core) (h : c.dlp.link ≠ .lost) :
    ∃ q l, pump g c = { c with ctp := { c.ctp with queue := q }, dlp := { c.dlp with ctpLine := l } } ∧
      ∀ a, a ∈ q ++ l ↔ a ∈ c.ctp.queue ++ c.dlp.ctpLine := pumpSome_of_not_lost g _ c h

/-! ### Requests -/

/-- What a reissue can do: the requests are those of the table, under their own tags, each with a new deadline, and stand in
ascending tag order (R180); nothing else changes. -/
theorem reissue_eq (g : Settings) (c : Core) :
    ∃ t : List DriveReq, reissue g c = (c.onDlp fun d => { d with table := t }) ∧
      t.Perm (c.dlp.table.map fun q => { q with deadline := newDeadline g }) ∧ (t.map DriveReq.tag).Pairwise (· ≤ ·) :=
  ⟨_, rfl, List.perm_insertionSort _ _, List.pairwise_map.mpr (List.pairwise_insertionSort _ _)⟩

/-- A long request that ends leaves no job, shows its status, and raises REQUEST-DONE. -/
theorem endRequest_eq (g : Settings) (st : RespStatus) (c : Core) :
    endRequest g st c = { c with
      evu := c.evu.raise g .requestDone
      mgw := { c.mgw with job := none, response := { c.mgw.response with status := st } } } := rfl

/-! ### Key slots -/

/-- Changing a slot changes that slot alone. -/
theorem Kst.slot_onSlot (k : Kst) (i j : Nat) (f : Slot → Slot) (hi : i < k.slots.length) :
    (k.onSlot i f).slot j = if j = i then f (k.slot j) else k.slot j := by
  simp only [Kst.slot, Kst.onSlot, List.getD_eq_getElem?_getD, List.getElem?_modify]
  by_cases h : j = i
  · subst h; simp [hi]
  · have : ¬ i = j := fun e => h e.symm
    simp [h, this]

/-- Taking a slot off the reuse list changes no slot. -/
@[simp] theorem Kst.slot_unlist (k : Kst) (i j : Nat) : (k.unlist i).slot j = k.slot j := rfl

end Sys2Proof.Machine
end

