-- ==== Sys2Proof/WellFormed.lean ====
section
/-! DEFINITION. Which commands a recorder, a drive or the part itself can form: the field widths of R156, the built-in
codes of R209, and the sector counts of R136, R141 and R162. -/

namespace Sys2Proof

/-- The built-in command codes of Table 11-15 (R209). -/
def builtInCodes : List (BitVec 8) := [0x25, 0x35, 0x06, 0x60, 0x61, 0x64, 0xEA, 0xEC]

/-- The LBA and count fields of a frame: the count field's 0 stands for 65,536 (Table 7-1), so it holds 0 .. 65,535; an
LBA is reported in 8 bytes (Table 11-10). -/
def frameFieldsOk (lba count : Nat) : Bool := decide (lba < 2 ^ 64) && decide (count < 65536)

/-- An LBA the drive reports, if any. -/
def lbaOk : Option Nat → Bool
  | none => true
  | some x => decide (x < 2 ^ 64)

/-- The check on a command's operands. -/
def wellFormed : Instr → Bool
  | .readPlain _ lba count | .readQueued _ _ lba count | .writePlain _ lba count | .writeQueued _ _ lba count
  | .discardPlain _ lba count | .discardQueued _ _ lba count | .flush _ lba count | .identify _ lba count =>
      frameFieldsOk lba count
  | .otherCommand code _ lba count => frameFieldsOk lba count && !builtInCodes.contains code
  | .linkDataDrawn data => decide (1 ≤ data.length)
  | .readPieceComplete _ data => decide (1 ≤ data.length) && decide (data.length ≤ 128)
  | .mergeReadComplete _ data => decide (data.length = 8)
  | .queuedError _ lba => lbaOk lba
  | .driveFlushEnd (.error lba) | .passEnd (.error lba) _ | .identityReadEnd (.error lba)
  | .identifyReadEnd (.error lba) => lbaOk lba
  | .driveFlushEnd .good | .passEnd .good _ | .identityReadEnd (.good _) | .identifyReadEnd (.good _) | .powerOnReset
  | .resetNRelease | .recorderLinkReset | .tick | .attnPulseEnd | .linkDataDelivered | .completionSent
  | .arrivalRefusalSent | .openWindow | .windowRead | .windowWriteOther | .unknownRequest | .close | .status | .ident
  | .format | .setPolicy | .lock | .create | .assign | .unassign | .setClear | .setAuProtect | .setLocked | .seal
  | .unseal | .join | .delete | .purge | .setFlags | .readRegion | .writeArea | .readMap | .ringAttach | .ringDetach
  | .ringRetention | .ringInfo | .ringChunks | .clockSet | .flushCache | .setWindow | .setAdmission | .readAdmission
  | .setTimeout | .setEvents | .restart | .restartEffect | .slotClearAll | .driveReady | .readyLimitExpiry
  | .identityReadTimeout | .tagGrant | .plainIssue | .deadlineExpiry | .catalogueReadComplete _ _
  | .catalogueWriteComplete _ | .writePieceComplete _ | .driveDiscardEnd _ | .resolutionStart | .slotWake
  | .keyLoadReread _ | .lockEntry | .moveAdmission _ | .flushIssue | .drainEnd | .formatDrainEnd | .detachWaitEnd => true

end Sys2Proof
end

