-- ==== Sys2Proof/Tests/Slice0.lean ====
section
/-! SUPPORT. Tests of the model against the manual's own examples and tables, the smoke test of WellFormed, and a witness
for the hypotheses of each statement (its last part). Expected values come from the manual. -/

open Sys2Proof Sys2Proof.Machine

namespace Sys2Proof.Tests

set_option Elab.async false

/-! ### States the tests start from -/

/-- RC of a drive of 4,194,304 sectors (Table 1-1). -/
def rc : Nat := 4186112

/-- The part in READY on a link that is UP, over that drive. -/
def base : State :=
  State.reset.onCore fun c => { c with
    ctp := { c.ctp with state := .ready, startUp := .ready, placement := Placement.ofCapacity 4194304,
                        identity := some 5, policy := some .clear }
    dlp := { c.dlp with link := .up, identity := some { capacity := 4194304, sectorSize := 512 } } }

def withCtp (f : Ctp → Ctp) : State := base.onCore fun c => c.onCtp f
def withDlp (f : Dlp → Dlp) : State := base.onCore fun c => c.onDlp f
def withRlp (f : Rlp → Rlp) : State := base.onCore fun c => c.onRlp f
def withMgw (f : Mgw → Mgw) : State := base.onCore fun c => c.onMgw f
def lost : State := withDlp fun d => { d with link := .lost }

/-- A request write with a code, a parameter length and fields of the record. -/
def reqWrite (code len : Nat) (fs : List (Nat × Nat × Nat)) : WinCmd :=
  { tag := .untagged, write := true, start := rc, count := 1,
    data := [BitVec.ofNat 4096 (place 0 2 code + place 2 2 7 + place 4 2 len + (fs.map fun f => place f.1 f.2.1 f.2.2).sum)] }

/-- A state whose OPEN window holds one window command. -/
def asked (s : State) (w : WinCmd) : State := s.onCore fun c => c.onMgw fun m => { m with opened := true, inbox := [w] }

/-- The state after a command that completes. -/
def after (c : Instr) (s : State) : State :=
  match exec c s with
  | .next t => t
  | _ => s

/-- A plain segment of a plan. -/
def planSeg (first count : Nat) (disp : Disp) (unit : Nat) : PlanSeg :=
  { first := first, count := count, disp := disp, slot := none, unit := unit, ctx := none, region := none, forward := none,
    ringTime := none, limit := none, parts := [], reported := false }

/-- An entry of the transfer list. -/
def txEntry (kind : CmdKind) (plan : List PlanSeg) (state : TxState) (items : List Item) : TxEntry :=
  { id := 7, tag := .tagged 3, kind := kind, start := 1000, count := 5, ranges := [], plan := plan, compared := [], blockers := [],
    state := state, pos := 0, items := items, out := [], onLink := false, asked := false, holds := [], buffer := [] }

/-- A state with transfer list entries and requests in the drive request table. -/
def moving (es : List TxEntry) (qs : List DriveReq) : State :=
  base.onCore fun c => (c.onTxe fun t => { t with list := es }).onDlp fun d => { d with table := qs }

/-- A catalogue access and a transfer request as the drive holds them under a tag. -/
def access (x : CatSector) (dir : AccessDir) (o : AccessOwner) : Access := { seq := 0, sector := x, dir := dir, owner := o }
def held (tag : Nat) (b : ReqBody) : DriveReq := { tag := tag, body := b, deadline := 9 }
def txReq (kind : TxReqKind) (lba count : Nat) : TxReq :=
  { id := 7, kind := kind, lba := lba, count := count, data := [], ranges := [] }

/-- A descriptor of region 9, OPEN, a RECORDING under key record 4. -/
def desc9 : Desc :=
  { state := .opened, kind := .recording, cls := .free, unit := 1, key := 4, locked := false, played := false,
    written := false, ring := none, forward := none, area := [] }

/-! ### WellFormed refuses a term that breaks each of its checks -/

theorem test_frame_lba_too_wide : wellFormed (.readPlain 0 (2 ^ 64) 1) = false := by decide
theorem test_frame_count_too_wide : wellFormed (.writeQueued 3 0 0 65536) = false := by decide
theorem test_other_with_builtin_code : wellFormed (.otherCommand 0x25 0 0 1) = false := by decide +kernel
theorem test_no_sectors_drawn : wellFormed (.linkDataDrawn []) = false := by decide
theorem test_read_piece_too_long : wellFormed (.readPieceComplete 0 (List.replicate 129 0)) = false := by decide +kernel
theorem test_read_piece_empty : wellFormed (.readPieceComplete 0 []) = false := by decide
theorem test_merge_read_not_a_unit : wellFormed (.mergeReadComplete 0 (List.replicate 7 0)) = false := by decide +kernel
theorem test_error_lba_too_wide : wellFormed (.queuedError 0 (some (2 ^ 64))) = false := by decide
theorem test_flush_error_lba : wellFormed (.driveFlushEnd (.error (some (2 ^ 64)))) = false := by decide
theorem test_pass_error_lba : wellFormed (.passEnd (.error (some (2 ^ 64))) []) = false := by decide
theorem test_identity_error_lba : wellFormed (.identityReadEnd (.error (some (2 ^ 64)))) = false := by decide
theorem test_identify_error_lba : wellFormed (.identifyReadEnd (.error (some (2 ^ 64)))) = false := by decide
theorem test_well_formed : wellFormed (.readQueued 15 0 (2 ^ 64 - 1) 65535) = true := by decide

/-! ### The manual's examples and tables -/

/-- Table 1-1, on the smallest suitable drive and on one above the largest usable capacity. -/
theorem test_placement_smallest : Placement.ofCapacity (2 ^ 21 + 8192) =
    { usable := 2 ^ 21 + 8192, base := 2 ^ 21, reported := 2 ^ 21, auCount := 32, pages := 1 } := by decide
theorem test_placement_largest : (Placement.ofCapacity (2 ^ 40)).auCount = 131072 ∧ (Placement.ofCapacity (2 ^ 40)).pages = 1093 := by
  decide

/-- Table 6-3. -/
theorem test_compared_range_u8 : comparedRange (planSeg 1003 10 .cipher 8) = (1000, 1015) := by decide
theorem test_compared_range_u1 : comparedRange (planSeg 1003 10 .cipher 1) = (1003, 1012) := by decide
theorem test_compared_range_chunk : comparedRange { planSeg (268435456 + 20384) 4192 .cipher 8 with ctx := some 0 } =
    (268435456 + 16384, 268435456 + 24575) := by decide
theorem test_compared_range_chunks : comparedRange { planSeg (268435456 + 8000) 8500 .cipher 8 with ctx := some 0 } =
    (268435456, 268435456 + 24575) := by decide
theorem test_compared_range_clear : comparedRange (planSeg 70000 8 .clear 1) = (70000, 70007) := by decide

/-- Table 6-4: WRITE S = 131,000, N = 2,000 over an AU boundary, unit size 8. -/
theorem test_cut_at_au : cutRange 131000 2000 = [(131000, 72), (131072, 1928)] := by decide
theorem test_pieces_of_second_segment : (runPieces 8 131072 132999).length = 16 ∧
    (runPieces 8 131072 132999)[15]? = some (.piece 132992 8 131072 132999) := by decide

/-- Table 7-1 and Table 11-15. -/
theorem test_kind_codes : kindOf 0x25 = .read ∧ kindOf 0x61 = .write ∧ kindOf 0x64 = .discard ∧ kindOf 0xEA = .flush ∧
    kindOf 0xEC = .identify ∧ kindOf 0xB0 = .other := by decide

/-- Table 5-4 and Table 5-5. -/
theorem test_ring_write_from_zero : chunkAfterWrite true 60 100 0 50 (.stamped 90 8192) = .stamped 100 50 := by decide
theorem test_ring_write_continues : chunkAfterWrite true 60 100 50 80 (.stamped 90 50) = .stamped 90 80 := by decide
theorem test_ring_write_gap : chunkAfterWrite true 60 100 51 80 (.stamped 90 50) = .stamped 90 50 := by decide
theorem test_ring_write_expired : chunkAfterWrite true 60 150 50 80 (.stamped 90 50) = .stamped 150 0 := by decide
theorem test_ring_discard_to_end : chunkAfterDiscard 40 8192 (.stamped 90 50) = .stamped 90 40 := by decide
theorem test_ring_discard_inside : chunkAfterDiscard 0 8191 (.stamped 90 50) = .stamped 90 50 := by decide

/-- Table 3-3. -/
theorem test_window_outcomes : windowVerdict .clearProtected .write = .refuse .protect ∧
    windowVerdict .clearProtected .discard = .take .zero ∧ windowVerdict .noAccess .read = .refuse .noAccess := by decide

/-- Table 1-2, the last page, descriptor and key record of the catalogue. -/
theorem test_sector_offsets : CatSector.offset (.page 1092) = 1093 ∧ CatSector.offset (.desc 4095) = 5195 ∧
    CatSector.offset (.key 1023) = 6223 := by decide

/-- A map entry of region 0 is damaged (R4), and a descriptor without a key is unless EMPTY (Table 1-5). -/
theorem test_map_entry_damaged : MapEntry.decode 0x00020000 = none ∧ MapEntry.decode 0x01020009 = some (.region 9 true) := by
  decide
theorem test_descriptor_without_key : Desc.decode { desc9 with key := 0 }.encode = none := by decide +kernel
theorem test_descriptor_decodes : Desc.decode desc9.encode = some desc9 := by decide +kernel

/-- A READ goes through screening to the resolution queue, and a refusal is recorded. -/
theorem test_read_queued : ((after (.readQueued 3 0 100 0) base).core.rsv.queue.map fun x => (x.start, x.count)) = [(100, 65536)] := by
  decide +kernel
theorem test_tag_in_use : (after (.readQueued 3 0 9 1) (after (.readQueued 3 0 100 1) base)).core.evu.lastRefusal =
    some { tag := .tagged 3, status := .tagInUse, lba := 9 } := by decide +kernel
theorem test_not_ready : (after (.readPlain 0 9 1) State.reset).core.rlp.linkList =
    [.completion .untagged (.refused .notReady)] := by decide +kernel

/-- A PASS that moves sectors both ways: an item of the link list each, in order, and the status behind them (R164, R168,
R178). -/
def passing : State :=
  let p : PlainReq := { kind := .pass, frame := none, live := true, data := [] }
  after (.passEnd .good [zeroSector]) ((withDlp fun d => { d with table := [held 0 (.plain p)] }).onCore
    (handMoves p [.toDrive 1, .toRecorder zeroSector []]))
theorem test_pass_items : passing.core.rlp.linkList =
    [.draw .untagged .pass 2, .delivery .untagged .pass [zeroSector], .delivery .untagged .pass [zeroSector],
      .completion .untagged .good] := by decide +kernel

/-- A DISCARD keeps its range list in the transfer list (Table 6-1). -/
theorem test_discard_ranges : (enterTransfer { id := 3, tag := .untagged, kind := .discard, start := 0, count := 1, ranges := [(5, 3)] } []
    base.core).txe.list.map TxEntry.ranges = [[(5, 3)]] := by decide +kernel

/-- RESTART's code and the clock that CLOCK-SET takes. -/
theorem test_clock_set : (after .clockSet (asked base (reqWrite 0x1B 4 [(8, 4, 77)]))).set.clock = 77 := by decide +kernel
theorem test_timeout_clamped : (after .setTimeout (asked base (reqWrite 0x20 2 [(8, 2, 61)]))).set.timeout = 60 := by decide +kernel
theorem test_clamp_raised : EventFlag.clamped.inWord
    (after .setTimeout (asked base (reqWrite 0x20 2 [(8, 2, 0)]))).core.evu.flags = true := by decide +kernel
theorem test_wrong_order : (after .close (asked base (reqWrite 0x02 0 []))).core.mgw.opened = true := by decide +kernel

/-! ### Witnesses: states and operands that meet the hypotheses of each statement -/

/-- Frames as they are fresh. -/
theorem fresh_asked (s : State) (w : WinCmd) (code : Nat) (h1 : nextWindow (asked s w).core = some (w, .request code))
    (h2 : s.core.mgw.response.status = .none) (h3 : s.core.mgw.job = none) (h4 : 8 + w.paramLength ≤ 512 * w.count) :
    Fresh (asked s w).core code w where
  head := h1
  idle := by simp only [asked, State.onCore, Core.onMgw, h2]; decide
  law := by simp only [asked, State.onCore, Core.onMgw, RequestOk, h2, h3]; decide
  fits := h4

theorem requestOk_asked (w : WinCmd) : RequestOk (asked base w).core.mgw := by
  show (none : Option Job).isSome = true ↔ RespStatus.none = .inProgress
  decide

theorem accepts_base (tag : CmdTag) : Accepts base.core tag := by
  cases tag <;> exact ⟨by decide, rfl, rfl⟩

/-- Bring-up states: an attempt at its ready limit, or at its identity read, that begins now. -/
def bringing (link : LinkState) (b : BringUp) (attempts : Nat) : State :=
  State.reset.onCore fun c => c.onDlp fun d => { d with link := link, bring := b, attempts := attempts }

/-- An identity sector that reports this capacity and sectors of 512 bytes. -/
def identitySector (capacity : Nat) : Sector := BitVec.ofNat 4096 (place 200 8 capacity)

theorem witness_StepRunsFrontCommand : State.reset.pending = [] := rfl

theorem witness_PowerOnResetState : State.reset.set.otp.valid = true ∧
    (State.powerOn { Otp.shipped with valid := false }).set.otp.valid = false := ⟨rfl, rfl⟩

theorem witness_RecorderLinkResetAbandons : base.core.dlp.link ≠ .lost := by decide

theorem witness_BringUpBegins : State.reset.core.dlp.link = .down ∧
    (bringing .bringUp (.waitReady 5) 0).core.dlp.bring = .waitReady 5 := ⟨rfl, rfl⟩

theorem witness_BringUpAttemptFails_next :
    (bringing .bringUp (.waitReady 0) 1).core.dlp.bring = .waitReady 0 ∧ 0 ≤ (bringing .bringUp (.waitReady 0) 1).set.timer ∧
      (bringing .bringUp (.waitReady 0) 1).core.dlp.attempts + 1 < 3 ∧
      (bringing .recovery (.readIdentity 0) 1).core.dlp.bring = .readIdentity 0 := by decide
theorem witness_BringUpAttemptFails_third :
    (bringing .bringUp (.waitReady 0) 2).core.dlp.bring = .waitReady 0 ∧ 3 ≤ (bringing .bringUp (.waitReady 0) 2).core.dlp.attempts + 1 ∧
      (bringing .bringUp (.waitReady 0) 2).core.dlp.link = .bringUp ∧ (bringing .bringUp (.waitReady 0) 2).core.ctp.queue = [] ∧
      (bringing .bringUp (.waitReady 0) 2).core.dlp.ctpLine = [] ∧
      (bringing .bringUp (.readIdentity 0) 2).core.dlp.bring = .readIdentity 0 ∧
      0 ≤ (bringing .bringUp (.readIdentity 0) 2).set.timer ∧ (bringing .bringUp (.readIdentity 0) 2).core.dlp.link = .bringUp ∧
      (bringing .bringUp (.readIdentity 0) 2).core.ctp.queue = [] ∧
      (bringing .bringUp (.readIdentity 0) 2).core.dlp.ctpLine = [] := by decide

/-- A READ of LBA 70,000 in resolution, with segments and a phase. -/
def resolving (segs : List Seg) (ph : RsvPhase) : Resolution :=
  { cmd := { id := 0, tag := .untagged, kind := .read, start := 70000, count := 1, ranges := [] }, segs := segs, memo := [],
    phase := ph, updates := [] }

/-- The third attempt at start-up fails with a command in resolution, at a phase, and an access that waits in the CTP line;
slot 0 loads key record 4. -/
def accessWaiting (ph : RsvPhase) (a : Access) : State :=
  (bringing .bringUp (.waitReady 0) 2).onCore fun c =>
    ((c.onDlp fun d => { d with ctpLine := [a] }).onRsv fun v => { v with current := some (resolving [] ph) }).onKst fun k =>
      k.startLoad 0 4
theorem witness_BringUpAttemptFails_waiting :
    let q : TxReq := { id := 7, kind := .read, lba := 1000, count := 5, data := [], ranges := [] }
    let e := txEntry .read [planSeg 1000 5 .clear 1] .moving []
    let s := (bringing .recovery (.waitReady 0) 2).onCore fun c => (c.onTxe fun t => { t with list := [e] }).onDlp fun d =>
      { d with txeLine := [q] }
    let p : PlainReq := { kind := .identify, frame := none, live := true, data := [] }
    let u := (bringing .bringUp (.waitReady 0) 2).onCore fun c => c.onDlp fun d => { d with plain := [p] }
    let a : Access := { seq := 0, sector := .desc 9, dir := .read, owner := .request }
    let v := (accessWaiting (.walking 0) a).onCore (setJob (Job.start (.setLocked 9 true) .checkDesc))
    3 ≤ s.core.dlp.attempts + 1 ∧ s.core.dlp.txeLine = [q] ∧ findTx q.id s.core = some e ∧ e.state = .moving ∧
      u.core.dlp.plain = [p] ∧ p.live = true ∧
      v.core.dlp.ctpLine = [a] ∧ v.core.mgw.job.isSome = true ∧ 3 ≤ v.core.dlp.attempts + 1 := by decide
theorem witness_BringUpAttemptFails_reads :
    let w : Access := { seq := 0, sector := .page 0, dir := .read, owner := .walk }
    let f : Access := { seq := 0, sector := .desc 9, dir := .read, owner := .flagUpdate }
    let l : Access := { seq := 0, sector := .key 4, dir := .read, owner := .keyLoad 0 }
    let s := accessWaiting (.flagRead 9) f
    let t := accessWaiting (.loadWait 0 0 true) l
    (accessWaiting (.walking 0) w).core.rsv.current = some (resolving [] (.walking 0)) ∧
      (accessWaiting (.walking 0) w).core.dlp.ctpLine = [w] ∧ w.dir = .read ∧
      s.core.rsv.current = some (resolving [] (.flagRead 9)) ∧ s.core.dlp.ctpLine = [f] ∧ f.dir = .read ∧
      t.core.rsv.current = some (resolving [] (.loadWait 0 0 true)) ∧ t.core.dlp.ctpLine = [l] ∧
      (t.core.kst.slot 0).state = .loading ∧ (t.core.kst.slot 0).record ≠ none ∧ (t.core.kst.slot 0).parked = none :=
  ⟨rfl, rfl, rfl, rfl, rfl, rfl, rfl, rfl, by decide, by decide, by decide⟩

theorem witness_IdentityReadEndsAttempt_unsuitable :
    (bringing .bringUp (.readIdentity 9) 0).core.dlp.link = .bringUp ∧
      min (identityFigures (identitySector (2 ^ 21 + 8191))).capacity (2 ^ 33) < 2 ^ 21 + 8192 := by decide +kernel
theorem witness_IdentityReadEndsAttempt_suitable :
    (identityFigures (identitySector (2 ^ 21 + 8192))).sectorSize = 512 ∧
      ¬min (identityFigures (identitySector (2 ^ 21 + 8192))).capacity (2 ^ 33) < 2 ^ 21 + 8192 ∧
      (bringing .bringUp (.readIdentity 9) 0).core.kst.keys ≠ none := by
  refine ⟨by decide +kernel, by decide +kernel, ?_⟩
  show some _ ≠ none
  simp
theorem witness_IdentityReadEndsAttempt_noKeys :
    ((State.powerOn { Otp.shipped with valid := false }).onCore fun c => c.onDlp fun d =>
      { d with link := .bringUp, bring := .readIdentity 9 }).core.kst.keys = none := rfl
theorem witness_IdentityReadEndsAttempt_recovery :
    (withDlp fun d => { d with link := .recovery, bring := .readIdentity 9 }).core.dlp.identity =
      some (identityFigures (identitySector 4194304)) ∧
    (withDlp fun d => { d with link := .recovery, bring := .readIdentity 9, attempts := 1 }).core.dlp.identity ≠
      some (identityFigures (identitySector 4194303)) ∧
    3 ≤ (withDlp fun d => { d with link := .recovery, bring := .readIdentity 9, attempts := 2 }).core.dlp.attempts + 1 := by
  decide +kernel

theorem witness_ClockNeverDecreases : ({ base with set := { base.set with clock := 4294967295 } } : State).set.clock ≤ 4294967295 ∧
    Instr.tick ≠ .powerOnReset ∧ exec .tick base = .next (after .tick base) := ⟨by decide, by decide, rfl⟩

theorem witness_FlagsPulse : (base.onCore fun c => c.onEvu fun e => { e with pulseEnd := some 0 }).core.evu.pulseEnd = some 0 ∧
    0 ≤ base.set.timer ∧ (base.onCore fun c => c.onEvu fun e => { e with pulseEnd := some 1 }).core.evu.pulseEnd = some 1 ∧
    base.set.timer < 1 := by decide

theorem witness_ReadWriteJoinsQueue : frameOfInstr (.readPlain 0 (rc - 1) 1) =
      some { code := 0x25, feature := 0, lba := rc - 1, count := 1, tag := .untagged } ∧ kindOf 0x25 = .read ∧
    Accepts base.core .untagged ∧ base.core.ctp.state ≠ .unknown ∧ rc - 1 + 1 - 1 < base.core.ctp.placement.reported :=
  ⟨rfl, by decide, accepts_base _, by decide, by decide⟩
theorem witness_ReadWriteJoinsQueue_largest : frameOfInstr (.writeQueued 15 0 (rc - 65536) 0) =
      some { code := 0x61, feature := 0, lba := rc - 65536, count := 0, tag := .tagged 15 } ∧ kindOf 0x61 = .write ∧
    Accepts base.core (.tagged 15) ∧ rc - 65536 + 65536 - 1 < base.core.ctp.placement.reported :=
  ⟨rfl, by decide, accepts_base _, by decide⟩

theorem witness_WindowCommandsReachWindow : Accepts base.core .untagged ∧
    base.core.ctp.placement.reported ≤ rc ∧ rc + 16 - 1 ≤ base.core.ctp.placement.reported + 15 ∧ kindOf 0x25 = .read ∧
    base.core.ctp.placement.reported ≤ rc + 15 ∧ rc + 15 + 1 - 1 ≤ base.core.ctp.placement.reported + 15 ∧
    kindOf 0x35 = .write := ⟨accepts_base _, by decide⟩

theorem witness_ScreeningRefuses_notReady : Accepts State.reset.core .untagged ∧ State.reset.core.ctp.state = .unknown :=
  ⟨⟨by decide, rfl, rfl⟩, rfl⟩
theorem witness_ScreeningRefuses_range : Accepts base.core .untagged ∧ base.core.ctp.placement.reported = rc ∧
    (rc ≤ rc - 1 + 2 - 1 ∧ rc - 1 < rc) ∧ (rc ≤ rc + 17 - 1 ∧ rc + 15 < rc + 17 - 1) ∧ kindOf 0x06 = .discard ∧
    (8 < 9 ∨ (0 : Nat) = 0) := ⟨accepts_base _, by decide⟩

theorem witness_OtherKindsRouted_discard : frameOfInstr (.discardQueued 0 0 0 8) =
      some { code := 0x64, feature := 0, lba := 0, count := 8, tag := .tagged 0 } ∧ kindOf 0x64 = .discard ∧
    Accepts base.core (.tagged 0) ∧ base.core.ctp.state ≠ .unknown := ⟨rfl, by decide, accepts_base _, by decide⟩
theorem witness_OtherKindsRouted_rest : Accepts base.core .untagged ∧ kindOf 0xEA = .flush ∧ kindOf 0xEC = .identify ∧
    kindOf 0xB0 = .other ∧
    admissionAction base.set { code := 0xB0, feature := 0, lba := 0, count := 0, tag := .untagged } = .refuse ∧
    admissionAction { base.set with defaultAction := .pass }
      { code := 0xB0, feature := 0, lba := 0, count := 0, tag := .untagged } = .pass ∧
    base.core.dlp.link ≠ .lost ∧ lost.core.dlp.link = .lost := ⟨accepts_base _, by decide +kernel⟩

/-- A command in the command table. -/
def inTable (tag : CmdTag) : CmdEntry :=
  routedEntry { code := 0x60, feature := 0, lba := 0, count := 1, tag := tag } .rsv

theorem witness_ArrivalChecks_held :
    linkHolds (withRlp fun r => { r with linkList := [.arrivalRefusal .untagged .sequence] }).core = true := by decide
theorem witness_ArrivalChecks_refused :
    (∃ e ∈ (withRlp fun r => { r with table := [inTable .untagged] }).core.rlp.table, e.tag = .untagged) ∧
    (∀ e ∈ (withRlp fun r => { r with table := [inTable (.tagged 3)] }).core.rlp.table, e.tag ≠ .untagged) ∧
    (∃ e ∈ (withRlp fun r => { r with table := [inTable (.tagged 3)] }).core.rlp.table, e.tag = .tagged 3) ∧
    (withRlp fun r => { r with table := [inTable (.tagged 3)] }).core.rlp.table ≠ [] ∧
    linkHolds (withRlp fun r => { r with table := [inTable (.tagged 3)] }).core = false ∧
    (withRlp fun r => { r with table := [inTable (.tagged 3)] }).core.rlp.held = [] := by decide

theorem witness_AdmissionMatch :
    let e : AdmissionEntry := { AdmissionEntry.disabled with enable := true, codeValue := 0xB0, codeMask := 0xFF }
    ({ base.set with admission := [AdmissionEntry.disabled, e] } : Settings).admission[1]? = some e ∧ e.enable = true ∧
      (∀ b < 8, e.codeMask.getLsbD b = true → (0xB0 : BitVec 8).getLsbD b = e.codeValue.getLsbD b) ∧
      (∀ e ∈ base.set.admission, ¬(e.enable = true)) := by decide +kernel

theorem witness_DrawnDataReachesItsBlock_window :
    let s := withRlp fun r => { r with table := [inTable .untagged], linkList := [.draw .untagged .windowWrite 1] }
    ((s.core.rlp.table.find? fun e => decide (e.tag = .untagged)).map CmdEntry.frame).isSome = true ∧
      s.core.rlp.linkList = .draw .untagged .windowWrite [zeroSector].length :: [] := by decide
theorem witness_DrawnDataReachesItsBlock_discard :
    let s := withRlp fun r => { r with table := [inTable .untagged], linkList := [.draw .untagged .discardPayload 1] }
    s.core.rlp.linkList = .draw .untagged .discardPayload [zeroSector].length :: [] ∧ s.core.rlp.held = [] ∧
      (inTable .untagged).frame.tag = .untagged := by decide
theorem witness_DrawnDataReachesItsBlock_held :
    let f : Frame := { code := 0x60, feature := 0, lba := 0, count := 1, tag := .tagged 5 }
    let s := withRlp fun r =>
      { r with table := [inTable (.tagged 3)], linkList := [.draw (.tagged 3) .discardPayload 1], held := [f] }
    s.core.rlp.linkList = .draw (.tagged 3) .discardPayload [zeroSector].length :: [] ∧ s.core.rlp.held ≠ [] ∧
      (inTable (.tagged 3)).frame.tag = .tagged 3 := by decide
theorem witness_DrawnDataReachesItsBlock_pass :
    let p : PlainReq := { kind := .pass, frame := none, live := true, data := [] }
    let s := (withDlp fun d => { d with table := [held 0 (.plain p)] }).onCore fun c => c.onRlp fun r =>
      { r with table := [inTable .untagged], linkList := [.draw .untagged .pass 1] }
    ((s.core.rlp.table.find? fun e => decide (e.tag = .untagged)).map CmdEntry.frame).isSome = true ∧
      s.core.rlp.linkList = .draw .untagged .pass [zeroSector].length :: [] ∧ s.core.dlp.table = [held 0 (.plain p)] ∧
      p.kind = .pass ∧ p.live = true := by decide

theorem witness_DrawnPieceAsksForTag :
    let e := txEntry .write [planSeg 1003 10 .cipher 8] .moving [.piece 1000 16 1003 1012]
    let s := (moving [e] []).onCore fun c => c.onRlp fun r => { r with linkList := [.draw e.tag (.writePiece 7) 10] }
    s.core.rlp.linkList = .draw e.tag (.writePiece 7) (List.replicate 10 zeroSector).length :: [] ∧ findTx 7 s.core = some e ∧
      e.plan[e.pos]? = some (planSeg 1003 10 .cipher 8) ∧ e.items = .piece 1000 16 1003 1012 :: [] ∧
      s.core.dlp.link ≠ .lost := by decide +kernel

theorem witness_LinkExchangesServed_window :
    (withRlp fun r => { r with linkList := [.delivery .untagged .window []] }).core.rlp.linkList =
      .delivery .untagged .window [] :: [] ∧ ∀ id, DeliveryFrom.window ≠ .transfer id := ⟨rfl, fun _ => by simp⟩
theorem witness_LinkExchangesServed_transfer :
    let e := { txEntry .read [planSeg 0 1 .clear 1] .moving [] with onLink := true, out := [[zeroSector]] }
    let s := (moving [e] []).onCore fun c => c.onRlp fun r => { r with linkList := [.delivery e.tag (.transfer 7) []] }
    s.core.rlp.linkList = .delivery e.tag (.transfer 7) [] :: [] ∧ findTx 7 s.core = some e ∧ e.state = .moving ∧
      e.asked = false ∧ e.out = [zeroSector] :: [] := by decide +kernel
theorem witness_LinkExchangesServed_completion :
    (withRlp fun r => { r with linkList := [.completion .untagged .good] }).core.rlp.linkList =
      .completion .untagged .good :: [] := rfl
theorem witness_LinkExchangesServed_arrival :
    let f : Frame := { code := 0x25, feature := 0, lba := 0, count := 1, tag := .untagged }
    let s := withRlp fun r => { r with linkList := [.arrivalRefusal .untagged .sequence], held := [f] }
    s.core.rlp.linkList = .arrivalRefusal .untagged .sequence :: [] ∧ s.core.rlp.held = [f] ∧
      frameOfInstr (.readPlain 0 0 1) = some f ∧
      linkHolds { s.core with rlp := { s.core.rlp with linkList := [], held := [] } } = false := by decide

/-! #### The management window -/

/-- A one-sector write at RC that carries the opening mark and the window code of zeros. -/
def openingWrite : WinCmd :=
  { tag := .untagged, write := true, start := rc, count := 1, data := [BitVec.ofNat 4096 (place 0 8 openingMark)] }
def windowReadAt (lba n : Nat) : WinCmd := { tag := .untagged, write := false, start := lba, count := n, data := [] }

theorem witness_WindowWritesTaken_opening : nextWindow (asked base openingWrite).core = some (openingWrite, .opening) := by
  decide +kernel
theorem witness_WindowWritesTaken_other :
    let w := { openingWrite with start := rc + 8 }
    (asked base w).core.mgw.restart = .none ∧ (asked base w).core.mgw.inbox.head? = some w ∧ w.write = true ∧
      w.start ≠ (asked base w).core.ctp.placement.reported := by decide +kernel
theorem witness_WindowReadAnswered : nextWindow (asked base (windowReadAt (rc + 8) 8)).core = some (windowReadAt (rc + 8) 8, .read) ∧
    (asked base (windowReadAt (rc + 8) 8)).core.mgw.opened = true ∧
    nextWindow (asked base (windowReadAt rc 1)).core = some (windowReadAt rc 1, .read) := by decide +kernel

theorem witness_ShapeAndCodeChecks_code : Fresh (asked base (reqWrite 0x23 0 [])).core 0x23 (reqWrite 0x23 0 []) ∧
    Fresh (asked base (reqWrite 0 0 [])).core 0 (reqWrite 0 0 []) :=
  ⟨fresh_asked _ _ _ (by decide +kernel) rfl rfl (by decide +kernel),
    fresh_asked _ _ _ (by decide +kernel) rfl rfl (by decide +kernel)⟩
theorem witness_ShapeAndCodeChecks_shape :
    nextWindow (asked base (reqWrite 1 505 [])).core = some (reqWrite 1 505 [], .request 1) ∧
    512 * (reqWrite 1 505 []).count < 8 + (reqWrite 1 505 []).paramLength ∧ (reqWrite 1 1 []).paramLength ≠ 0 ∧
    (asked base (reqWrite 1 505 [])).core.mgw.response.status ≠ .inProgress ∧
    RequestOk (asked base (reqWrite 1 505 [])).core.mgw :=
  ⟨by decide +kernel, by decide +kernel, by decide +kernel, by decide, requestOk_asked _⟩
theorem witness_ShapeAndCodeChecks_unknownOverrun :
    nextWindow (asked base (reqWrite 0x23 505 [])).core = some (reqWrite 0x23 505 [], .request 0x23) ∧
    512 * (reqWrite 0x23 505 []).count < 8 + (reqWrite 0x23 505 []).paramLength ∧
    (asked base (reqWrite 0x23 505 [])).core.mgw.response.status ≠ .inProgress ∧
    RequestOk (asked base (reqWrite 0x23 505 [])).core.mgw :=
  ⟨by decide +kernel, by decide +kernel, by decide, requestOk_asked _⟩
theorem witness_ShapeAndCodeChecks_writeArea :
    let w := reqWrite 20 4 [(8, 2, 1), (10, 2, 1)]
    nextWindow (asked base w).core = some (w, .request 20) ∧ w.paramLength ≠ 4 + field w.record 10 2 ∧
    nextWindow (asked base (reqWrite 20 505 [])).core = some (reqWrite 20 505 [], .request 20) ∧
    requestCode .writeArea = some 20 ∧ 512 * (reqWrite 20 505 []).count < 8 + (reqWrite 20 505 []).paramLength := by
  decide +kernel
theorem witness_BusyWindowRefuses :
    let s := (asked base (reqWrite 2 0 [])).onCore (setResponse .inProgress)
    requestCode .status = some 2 ∧ nextWindow s.core = some (reqWrite 2 0 [], .request 2) ∧
      s.core.mgw.response.status = .inProgress := by decide +kernel

theorem witness_CloseAndLock : Fresh (asked base (reqWrite 1 0 [])).core 1 (reqWrite 1 0 []) ∧
    Fresh (asked base (reqWrite 6 0 [])).core 6 (reqWrite 6 0 []) ∧ (reqWrite 1 0 []).paramLength = 0 ∧
    CalmMoment base.core :=
  ⟨fresh_asked _ _ _ (by decide +kernel) rfl rfl (by decide +kernel),
    fresh_asked _ _ _ (by decide +kernel) rfl rfl (by decide +kernel), by decide +kernel, .inl (by decide)⟩

/-- The part with the catalogue lock set. -/
def locked : State := { base with set := { base.set with catalogueLock := true } }
theorem witness_CatalogueLockHolds :
    locked.set.catalogueLock = true ∧ Fresh (asked locked (reqWrite 4 1 [(8, 1, 1)])).core 4 (reqWrite 4 1 [(8, 1, 1)]) ∧
    Fresh (asked locked (reqWrite 5 1 [])).core 5 (reqWrite 5 1 []) ∧
    Fresh (asked locked (reqWrite 0x1D 12 [])).core 0x1D (reqWrite 0x1D 12 []) ∧
    Fresh (asked locked (reqWrite 0x1E 10 [])).core 0x1E (reqWrite 0x1E 10 []) ∧
    field (reqWrite 4 1 [(8, 1, 1)]).record 8 1 ≤ 1 ∧ (windowParam (reqWrite 0x1D 12 []).record).isSome = true ∧
    (admissionParam (reqWrite 0x1E 10 []).record).isSome = true :=
  ⟨rfl, fresh_asked _ _ _ (by decide +kernel) rfl rfl (by decide +kernel),
    fresh_asked _ _ _ (by decide +kernel) rfl rfl (by decide +kernel),
    fresh_asked _ _ _ (by decide +kernel) rfl rfl (by decide +kernel),
    fresh_asked _ _ _ (by decide +kernel) rfl rfl (by decide +kernel), by decide +kernel, by decide +kernel, by decide +kernel⟩

theorem witness_StatusReportsAndClears : Fresh (asked base (reqWrite 2 0 [])).core 2 (reqWrite 2 0 []) ∧
    (reqWrite 2 0 []).paramLength = 0 := ⟨fresh_asked _ _ _ (by decide +kernel) rfl rfl (by decide +kernel), by decide +kernel⟩
theorem witness_StatusReportsAndClears_record :
    let x : LastRefusal := { tag := .tagged 15, status := .refused .admission, lba := 9 }
    let s := asked (base.onCore fun c => c.onEvu fun e => { e with lastRefusal := some x }) (reqWrite 2 0 [])
    Fresh s.core 2 (reqWrite 2 0 []) ∧ s.core.evu.lastRefusal = some x ∧ base.core.evu.lastRefusal = none :=
  ⟨fresh_asked _ _ _ (by decide +kernel) rfl rfl (by decide +kernel), rfl, rfl⟩
theorem witness_IdentReports : Fresh (asked base (reqWrite 3 0 [])).core 3 (reqWrite 3 0 []) ∧
    (reqWrite 3 0 []).paramLength = 0 := ⟨fresh_asked _ _ _ (by decide +kernel) rfl rfl (by decide +kernel), by decide +kernel⟩
theorem witness_ClockSetRaisesOnly :
    Fresh (asked base (reqWrite 0x1B 4 [(8, 4, 4294967295)])).core 0x1B (reqWrite 0x1B 4 [(8, 4, 4294967295)]) ∧
    (reqWrite 0x1B 4 [(8, 4, 4294967295)]).paramLength = 4 ∧
    field (reqWrite 0x1B 4 []).record 8 4 < ({ base with set := { base.set with clock := 1 } } : State).set.clock :=
  ⟨fresh_asked _ _ _ (by decide +kernel) rfl rfl (by decide +kernel), by decide +kernel, by decide +kernel⟩
theorem witness_SetTimeoutClamps : Fresh (asked base (reqWrite 0x20 2 [(8, 2, 61)])).core 0x20 (reqWrite 0x20 2 [(8, 2, 61)]) ∧
    (reqWrite 0x20 2 [(8, 2, 61)]).paramLength = 2 :=
  ⟨fresh_asked _ _ _ (by decide +kernel) rfl rfl (by decide +kernel), by decide +kernel⟩
theorem witness_TablesReplaced_window :
    let w := reqWrite 0x1D 12 [(8, 1, 3), (9, 1, 2), (10, 1, 1), (12, 4, 131071), (16, 4, 131071)]
    Fresh (asked base w).core 0x1D w ∧ w.paramLength = 12 ∧ field w.record 8 1 = 3 ∧ field w.record 9 1 = 2 ∧
      field w.record 10 1 = 1 ∧ field w.record 12 4 = 131071 ∧ field w.record 16 4 = 131071 ∧
      base.set.catalogueLock = false ∧ base.set.windows.length = 4 :=
  ⟨fresh_asked _ _ _ (by decide +kernel) rfl rfl (by decide +kernel), by decide +kernel⟩
theorem witness_TablesReplaced_badWindow :
    let w := reqWrite 0x1D 12 [(8, 1, 4)]
    Fresh (asked base w).core 0x1D w ∧ w.paramLength = 12 ∧ ¬field w.record 8 1 ≤ 3 :=
  ⟨fresh_asked _ _ _ (by decide +kernel) rfl rfl (by decide +kernel), by decide +kernel⟩
theorem witness_TablesReplaced_admission :
    let w := reqWrite 0x1E 10 [(9, 1, 15), (10, 1, 1), (11, 1, 1)]
    let w' := reqWrite 0x1E 10 [(8, 1, 1), (11, 1, 1)]
    Fresh (asked base w).core 0x1E w ∧ Fresh (asked base w').core 0x1E w' ∧ w.paramLength = 10 ∧ field w.record 8 1 = 0 ∧
      field w.record 9 1 = 15 ∧ field w'.record 8 1 = 1 ∧ field w'.record 11 1 = 1 ∧ base.set.admission.length = 16 :=
  ⟨fresh_asked _ _ _ (by decide +kernel) rfl rfl (by decide +kernel),
    fresh_asked _ _ _ (by decide +kernel) rfl rfl (by decide +kernel), by decide +kernel⟩
theorem witness_TablesReplaced_badAdmission :
    let w := reqWrite 0x1E 10 [(9, 1, 16)]
    let w' := reqWrite 0x1E 10 [(8, 1, 2)]
    Fresh (asked base w).core 0x1E w ∧ Fresh (asked base w').core 0x1E w' ∧ w.paramLength = 10 ∧ w'.paramLength = 10 ∧
      field w.record 8 1 = 0 ∧ 15 < field w.record 9 1 ∧ 1 < field w'.record 8 1 :=
  ⟨fresh_asked _ _ _ (by decide +kernel) rfl rfl (by decide +kernel),
    fresh_asked _ _ _ (by decide +kernel) rfl rfl (by decide +kernel), by decide +kernel⟩
theorem witness_ReadAdmissionReports : Fresh (asked base (reqWrite 0x1F 0 [])).core 0x1F (reqWrite 0x1F 0 []) ∧
    (reqWrite 0x1F 0 []).paramLength = 0 ∧ base.set.admission.length = 16 :=
  ⟨fresh_asked _ _ _ (by decide +kernel) rfl rfl (by decide +kernel), by decide +kernel⟩
theorem witness_SetEventsTakesEffect :
    let w := reqWrite 0x21 3 [(8, 2, 4095), (10, 1, 1)]
    Fresh (asked base w).core 0x21 w ∧ w.paramLength = 3 ∧ field w.record 8 2 ≤ 4095 ∧ field w.record 10 1 ≤ 1 :=
  ⟨fresh_asked _ _ _ (by decide +kernel) rfl rfl (by decide +kernel), by decide +kernel⟩
theorem witness_FlushCacheInvalidates_all_region :
    let w := reqWrite 0x1C 12 []
    let w' := reqWrite 0x1C 12 [(8, 1, 1), (10, 2, 4095)]
    Fresh (asked base w).core 0x1C w ∧ Fresh (asked base w').core 0x1C w' ∧ w.paramLength = 12 ∧ field w.record 8 1 = 0 ∧
      field w'.record 8 1 = 1 ∧ field w'.record 10 2 = 4095 :=
  ⟨fresh_asked _ _ _ (by decide +kernel) rfl rfl (by decide +kernel),
    fresh_asked _ _ _ (by decide +kernel) rfl rfl (by decide +kernel), by decide +kernel⟩
theorem witness_FlushCacheInvalidates_aus :
    let w := reqWrite 0x1C 12 [(8, 1, 2), (12, 4, 63), (16, 4, 1)]
    Fresh (asked base w).core 0x1C w ∧ field w.record 8 1 = 2 ∧ field w.record 16 4 = 1 ∧
      field w.record 12 4 + field w.record 16 4 - 1 < base.core.ctp.placement.auCount :=
  ⟨fresh_asked _ _ _ (by decide +kernel) rfl rfl (by decide +kernel), by decide +kernel⟩

/-! #### Rings and long requests -/

/-- A ring of region 9 over AU 1, NEVER, of 8 chunks, and the part with it in context 1. -/
def ring9 : RingCtx :=
  { detaching := false, region := 9, first := 65536, chunkCount := 8, never := true, limit := 60,
    chunks := [.stamped 0 100, .stamped 0 8192] ++ List.replicate 6 .empty }
def ringed (s : State) : State := s.onCore fun c => { c with rings := [none, some ring9, none, none] }

theorem witness_RingReports_info :
    Fresh (asked (ringed base) (reqWrite 0x19 1 [(8, 1, 1)])).core 0x19 (reqWrite 0x19 1 [(8, 1, 1)]) ∧
    Fresh (asked base (reqWrite 0x19 1 [(8, 1, 3)])).core 0x19 (reqWrite 0x19 1 [(8, 1, 3)]) ∧
    (reqWrite 0x19 1 [(8, 1, 3)]).paramLength = 1 ∧ field (reqWrite 0x19 1 [(8, 1, 3)]).record 8 1 < 4 ∧
    ringCtx 1 (asked (ringed base) (reqWrite 0x19 1 [(8, 1, 1)])).core = some ring9 ∧ ringCtx 3 base.core = none :=
  ⟨fresh_asked _ _ _ (by decide +kernel) rfl rfl (by decide +kernel),
    fresh_asked _ _ _ (by decide +kernel) rfl rfl (by decide +kernel), by decide +kernel⟩
theorem witness_RingReports_oldest :
    .stamped 0 100 ∈ ring9.chunks ∧ ¬(ring9.never = true ∧ ring9.limit ≤ 59 - 0) ∧ (ring9.never = true ∧ ring9.limit ≤ 60 - 0) ∧
      ring9.chunks[7]? = some .empty ∧ ring9.chunks[1]? = some (.stamped 0 8192) := by decide
theorem witness_RingReports_chunks :
    let w := reqWrite 0x1A 6 [(8, 1, 1), (10, 2, 7), (12, 2, 1)]
    Fresh (asked (ringed base) w).core 0x1A w ∧ w.paramLength = 6 ∧ field w.record 8 1 = 1 ∧ field w.record 12 2 = 1 ∧
      field w.record 10 2 + field w.record 12 2 ≤ ring9.chunkCount ∧ Fresh (asked base w).core 0x1A w ∧
      ringCtx 1 base.core = none :=
  ⟨fresh_asked _ _ _ (by decide +kernel) rfl rfl (by decide +kernel), by decide +kernel, by decide +kernel,
    by decide +kernel, by decide +kernel, fresh_asked _ _ _ (by decide +kernel) rfl rfl (by decide +kernel), rfl⟩
theorem witness_RingReadShowsOnlyLiveData : (1 : Nat) ≤ 20000 ∧
    (partList ring9 0 65536 20000).map Part.data = [true, false, true, false] := by decide +kernel
theorem witness_RingWriteChangesChunks : (1 : Nat) ≤ 200 ∧ ring9.first % 8192 = 0 ∧ 1 < ring9.chunks.length ∧
    65636 < ring9.first + 8192 ∧ ring9.first < 65636 + 200 ∧ ring9.chunks.getD 0 .empty = .stamped 0 100 ∧
    ring9.chunks.getD 7 .empty = .empty := by decide

theorem witness_RestartTakesEffect : Fresh (asked base (reqWrite 0x22 0 [])).core 0x22 (reqWrite 0x22 0 []) ∧
    (reqWrite 0x22 0 []).paramLength = 0 ∧ (withMgw fun m => { m with restart := .sent }).core.mgw.restart = .sent ∧
    (base.onCore fun c => c.onKst fun k => { k with clearAll := true }).core.kst.clearAll = true ∧
    ∀ x ∈ base.core.kst.slots, x.use = 0 ∧ x.state ≠ .loading :=
  ⟨fresh_asked _ _ _ (by decide +kernel) rfl rfl (by decide +kernel), by decide +kernel, rfl, rfl, by decide⟩

theorem witness_DescriptorRequestsBegin_seal :
    let w := reqWrite 13 2 [(8, 2, 4095)]
    Fresh (asked base w).core 13 w ∧ w.paramLength = 2 ∧ field w.record 8 2 = 4095 ∧ base.core.ctp.state = .ready ∧
      base.core.dlp.link ≠ .lost := ⟨fresh_asked _ _ _ (by decide +kernel) rfl rfl (by decide +kernel), by decide +kernel⟩
theorem witness_DescriptorRequestsBegin_assign :
    let w := reqWrite 8 10 [(8, 2, 1), (10, 1, 1), (12, 4, 63), (16, 2, 1)]
    Fresh (asked base w).core 8 w ∧ w.paramLength = 10 ∧ field w.record 8 2 = 1 ∧ field w.record 10 1 ≤ 1 ∧
      1 ≤ field w.record 16 2 ∧ field w.record 16 2 ≤ 4096 ∧
      field w.record 12 4 + field w.record 16 2 - 1 < base.core.ctp.placement.auCount :=
  ⟨fresh_asked _ _ _ (by decide +kernel) rfl rfl (by decide +kernel), by decide +kernel⟩
theorem witness_DescriptorRequestsBegin_flagsAndArea :
    let w := reqWrite 18 4 [(8, 2, 1), (10, 1, 1), (11, 1, 1)]
    let w' := reqWrite 20 4 [(8, 2, 1)]
    Fresh (asked base w).core 18 w ∧ Fresh (asked base w').core 20 w' ∧ w.paramLength = 4 ∧ field w.record 11 1 ≤ 1 ∧
      w'.paramLength = 4 + field w'.record 10 2 ∧ field w'.record 10 2 ≤ 256 :=
  ⟨fresh_asked _ _ _ (by decide +kernel) rfl rfl (by decide +kernel),
    fresh_asked _ _ _ (by decide +kernel) rfl rfl (by decide +kernel), by decide +kernel⟩
theorem witness_DescriptorRequestsBegin_create :
    let w := reqWrite 7 16 [(8, 2, 9), (10, 1, 1), (11, 1, 3), (12, 1, 8), (14, 2, 4), (16, 4, 1), (20, 2, 1), (22, 2, 1441)]
    let w' := reqWrite 7 16 [(8, 2, 9), (11, 1, 3), (12, 1, 1), (14, 2, 4)]
    Fresh (asked base w).core 7 w ∧ Fresh (asked base w').core 7 w' ∧ w.paramLength = 16 ∧
      (createParam base.core.ctp.placement w.record).map CreateParams.kind = some .ring ∧
      (createParam base.core.ctp.placement w'.record).map (fun p => (p.share, p.kind, p.cls)) =
        some (false, .recording, .never) :=
  ⟨fresh_asked _ _ _ (by decide +kernel) rfl rfl (by decide +kernel),
    fresh_asked _ _ _ (by decide +kernel) rfl rfl (by decide +kernel), by decide +kernel⟩
theorem witness_PageRequestsAndJoinBegin :
    let w := reqWrite 9 6 [(8, 4, 0), (12, 2, 64)]
    let w' := reqWrite 15 4 [(8, 2, 1), (10, 2, 4095)]
    Fresh (asked base w).core 9 w ∧ Fresh (asked base w').core 15 w' ∧ w.paramLength = 6 ∧ field w.record 12 2 = 64 ∧
      field w.record 8 4 + field w.record 12 2 - 1 < base.core.ctp.placement.auCount ∧ w'.paramLength = 4 ∧
      field w'.record 8 2 = 1 ∧ field w'.record 10 2 = 4095 :=
  ⟨fresh_asked _ _ _ (by decide +kernel) rfl rfl (by decide +kernel),
    fresh_asked _ _ _ (by decide +kernel) rfl rfl (by decide +kernel), by decide +kernel⟩
theorem witness_FormatAndSetPolicyBegin :
    let w := reqWrite 4 1 [(8, 1, 1)]
    let w' := reqWrite 5 1 []
    Fresh (asked base w).core 4 w ∧ Fresh (asked base w').core 5 w' ∧ base.set.catalogueLock = false ∧ w.paramLength = 1 ∧
      field w.record 8 1 = Policy.noAccess.code ∧ field w'.record 8 1 = Policy.clear.code ∧
      base.core.ctp.startUp = .ready ∧ base.core.ctp.state = .ready ∧ base.core.ctp.locks = [] ∧ base.core.ctp.lockWait = [] :=
  ⟨fresh_asked _ _ _ (by decide +kernel) rfl rfl (by decide +kernel),
    fresh_asked _ _ _ (by decide +kernel) rfl rfl (by decide +kernel), by decide +kernel⟩
theorem witness_FormatAndSetPolicyBegin_refused :
    let w := reqWrite 4 1 [(8, 1, 1)]
    let v := reqWrite 5 1 [(8, 1, 2)]
    let u := reqWrite 5 1 []
    let noKeys := withCtp fun p => { p with state := .absent, startUp := .noKeys }
    Fresh (asked noKeys w).core 4 w ∧ Fresh (asked base v).core 5 v ∧ Fresh (asked noKeys u).core 5 u ∧ w.paramLength = 1 ∧
      v.paramLength = 1 ∧ u.paramLength = 1 ∧ field w.record 8 1 ≤ 1 ∧ 1 < field v.record 8 1 ∧ field u.record 8 1 ≤ 1 ∧
      noKeys.set.catalogueLock = false ∧ noKeys.core.ctp.startUp = .noKeys ∧ noKeys.core.ctp.state ≠ .ready :=
  ⟨fresh_asked _ _ _ (by decide +kernel) rfl rfl (by decide +kernel),
    fresh_asked _ _ _ (by decide +kernel) rfl rfl (by decide +kernel),
    fresh_asked _ _ _ (by decide +kernel) rfl rfl (by decide +kernel), by decide +kernel⟩
theorem witness_RingRequestsTakeEffect_attach :
    let w := reqWrite 22 3 [(8, 2, 8), (10, 1, 3)]
    Fresh (asked (ringed base) w).core 22 w ∧ w.paramLength = 3 ∧ field w.record 8 2 = 8 ∧ field w.record 10 1 = 3 ∧
      ringCtx 3 (asked (ringed base) w).core = none ∧ ring9.region ≠ 8 :=
  ⟨fresh_asked _ _ _ (by decide +kernel) rfl rfl (by decide +kernel), by decide +kernel⟩
theorem witness_RingRequestsTakeEffect_detach :
    let w := reqWrite 23 1 [(8, 1, 1)]
    let e := txEntry .read [{ planSeg 65536 1 .cipher 1 with ctx := some 1 }] .waitingRange []
    Fresh (asked (ringed base) w).core 23 w ∧ w.paramLength = 1 ∧ (ringed base).core.rings.length = 4 ∧
      ringCtx 1 (asked (ringed base) w).core = some ring9 ∧ ring9.detaching = false ∧
      ctxHeld 1 (asked (ringed base) w).core = false ∧ ctxHeld 1 (asked (ringed (moving [e] [])) w).core = true :=
  ⟨fresh_asked _ _ _ (by decide +kernel) rfl rfl (by decide +kernel), by decide +kernel⟩
theorem witness_RingRequestsTakeEffect_retention :
    let w := reqWrite 24 4 [(8, 2, 4095), (10, 2, 1441)]
    Fresh (asked base w).core 24 w ∧ w.paramLength = 4 ∧ field w.record 8 2 = 4095 ∧ field w.record 10 2 = 1441 :=
  ⟨fresh_asked _ _ _ (by decide +kernel) rfl rfl (by decide +kernel), by decide +kernel⟩

theorem witness_RingRequestsTakeEffect_refused :
    let w := reqWrite 22 3 [(8, 2, 9), (10, 1, 1)]
    let w' := reqWrite 22 3 [(8, 2, 9), (10, 1, 0)]
    Fresh (asked (ringed base) w).core 22 w ∧ Fresh (asked (ringed base) w').core 22 w' ∧
      Fresh (asked State.reset { w with start := 0 }).core 22 { w with start := 0 } ∧ w.paramLength = 3 ∧
      (ringCtx 1 (ringed base).core).isSome = true ∧ ringCtx 0 (ringed base).core = none ∧ ring9.region = 9 ∧
      State.reset.core.ctp.state ≠ .ready ∧ State.reset.core.dlp.link ≠ .lost :=
  ⟨fresh_asked _ _ _ (by decide +kernel) rfl rfl (by decide +kernel),
    fresh_asked _ _ _ (by decide +kernel) rfl rfl (by decide +kernel),
    fresh_asked _ _ _ (by decide +kernel) rfl rfl (by decide +kernel), by decide +kernel⟩
theorem witness_RequestsNotReady :
    let w := { reqWrite 13 2 [(8, 2, 4095)] with start := 0 }
    let w' := { reqWrite 7 16 [(8, 2, 9), (11, 1, 3), (12, 1, 1), (14, 2, 4)] with start := 0 }
    let v := { reqWrite 15 4 [(8, 2, 1), (10, 2, 4095)] with start := 0 }
    let u := reqWrite 9 6 [(8, 4, 0), (12, 2, 64)]
    let absent := withCtp fun p => { p with state := .absent }
    Fresh (asked State.reset w).core 13 w ∧ Fresh (asked State.reset w').core 7 w' ∧ Fresh (asked State.reset v).core 15 v ∧
      Fresh (asked absent u).core 9 u ∧ field u.record 8 4 + field u.record 12 2 - 1 < absent.core.ctp.placement.auCount ∧
      (createParam State.reset.core.ctp.placement w'.record).isSome = true ∧ State.reset.core.ctp.state ≠ .ready ∧
      absent.core.ctp.state ≠ .ready :=
  ⟨fresh_asked _ _ _ (by decide +kernel) rfl rfl (by decide +kernel),
    fresh_asked _ _ _ (by decide +kernel) rfl rfl (by decide +kernel),
    fresh_asked _ _ _ (by decide +kernel) rfl rfl (by decide +kernel),
    fresh_asked _ _ _ (by decide +kernel) rfl rfl (by decide +kernel), by decide +kernel⟩

/-! #### The drive link -/

theorem witness_DriveRequestsIssued_grant :
    let a := access .header .read .startUp
    let q := txReq .read 0 1
    let full := (List.range 15).map fun t => held t (.transfer q)
    (withDlp fun d => { d with ctpLine := [a], table := full }).core.dlp.plain = [] ∧
      (∀ x ∈ full, x.isPlain = false ∧ x.tag ≠ 15) ∧ (∀ u < 15, ∃ x ∈ full, x.tag = u) ∧
      ctpHeld (withDlp fun d => { d with ctpLine := [a], table := full }).core.dlp < 2 ∧
      2 ≤ ctpHeld (withDlp fun d => { d with txeLine := [q], table := [held 0 (.catalogue a), held 1 (.catalogue a)] }).core.dlp := by
  decide
theorem witness_DriveRequestsIssued_stopped : State.reset.core.dlp.link ≠ .up ∧
    (withDlp fun d => { d with plain := [{ kind := .pass, frame := none, live := true, data := [] }] }).core.dlp.plain ≠ [] ∧
    (∀ t < 16, ∃ q ∈ (List.range 16).map fun t => held t (.transfer (txReq .read 0 1)), q.tag = t) := by decide
theorem witness_DriveRequestsIssued_flush :
    let flushing (s : State) : State := s.onCore fun c => c.onTxe fun t => { t with flush := .waiting }
    (flushing base).core.txe.flush = .waiting ∧ (∀ q ∈ (flushing base).core.dlp.table, q.isWrite = false) ∧
      (flushing lost).core.dlp.link = .lost ∧ (held 0 (.transfer (txReq .write 0 1))).isWrite = true := by decide
theorem witness_DriveRequestsIssued_plain :
    (withDlp fun d => { d with plain := [{ kind := .pass, frame := none, live := true, data := [] }] }).core.dlp.plain =
      { kind := .pass, frame := none, live := true, data := [] } :: [] ∧ base.core.dlp.table = [] ∧ base.core.dlp.link = .up := by
  decide

/-- A job at a stage, in a state whose response record shows it. -/
def working (s : State) (req : Request) (stage : Stage) : State :=
  s.onCore fun c => c.onMgw fun m =>
    { m with job := some (Job.start req stage), response := { code := 1, serial := 1, status := .inProgress } }

theorem witness_FailedRequests_deadline :
    let e := txEntry .read [planSeg 1000 5 .clear 1] .moving [.piece 1000 5 1000 1004]
    let q := { held 0 (.transfer (txReq .read 1000 5)) with deadline := 0 }
    q ∈ (moving [e] [q]).core.dlp.table ∧ q.deadline ≤ (moving [e] [q]).set.timer ∧ findTx 7 (moving [e] [q]).core = some e ∧
      e.state = .moving ∧ (∀ x ∈ (moving [e] [held 0 (.transfer (txReq .read 1000 5))]).core.dlp.table,
        (moving [e] []).set.timer < x.deadline) := by decide +kernel
theorem witness_FailedRequests_deadlineRequest :
    let s := working (moving [] [{ held 0 (.catalogue (access .header .read .request)) with deadline := 0 }]) (.seal 9) .checkDesc
    s.core.mgw.job.isSome = true ∧ s.core.dlp.table.length = 1 := by decide
theorem witness_FailedRequests_piece :
    let e := txEntry .read [planSeg 1003 5 .cipher 8] .moving [.piece 1000 8 1003 1007]
    let s := moving [e] [held 3 (.transfer (txReq .read 1000 8))]
    HoldsTransfer s.core 3 (txReq .read 1000 8) ∧ findTx 7 s.core = some e ∧ e.state ≠ .abandoned ∧
      e.plan[e.pos]? = some (planSeg 1003 5 .cipher 8) ∧ s.core.dlp.link ≠ .lost :=
  ⟨by simp only [HoldsTransfer]; decide +kernel, by decide +kernel⟩
theorem witness_FailedRequests_merge_discard_abandoned :
    let e := txEntry .write [planSeg 1003 5 .cipher 8] .moving [.mergeRead 1000]
    let q : TxReq := { txReq .discard 70 1 with ranges := [(70, 8)] }
    e.items = .mergeRead 1000 :: [] ∧ q.ranges = (70, 8) :: [] ∧
      (txEntry .read [planSeg 1000 5 .clear 1] .abandoned []).state = .abandoned := by decide
theorem test_reissue_in_tag_order :
    let q (t : Nat) : DriveReq := held t (.transfer (txReq .read 1000 5))
    (after (.queuedError 5 none) (moving [] [q 3, q 5, q 0])).core.dlp.table.map DriveReq.tag = [0, 3] := by decide
theorem witness_FailedRequests_format :
    let a := access (.key 7) (.write zeroSector .none) .format
    let j := { Job.start (.format .clear) .formatRecords with index := 7, outstanding := 2 }
    let s (line : List Access) : State := (moving [] [held 3 (.catalogue a)]).onCore fun c =>
      setJob j (c.onDlp fun d => { d with ctpLine := line })
    HoldsAccess (s []).core 3 a ∧ a.dir ≠ .read ∧ (s []).core.mgw.job = some j ∧ j.req = .format .clear ∧
      j.outstanding - 1 - ((s []).core.ctp.queue ++ (s []).core.dlp.ctpLine).countP (fun b => decide (b.owner = .format)) ≠ 0 ∧
      j.outstanding - 1 - ((s [a]).core.ctp.queue ++ (s [a]).core.dlp.ctpLine).countP (fun b => decide (b.owner = .format)) = 0 :=
  ⟨rfl, by decide, rfl, rfl, by decide, by decide⟩
theorem witness_FailedRequests_walk :
    let x : Xfer := { id := 3, tag := .untagged, kind := .read, start := 70000, count := 1, ranges := [] }
    let r : Resolution := { cmd := x, segs := segmentsOf base.set x, memo := [], phase := .walking 0, updates := [] }
    let s := (moving [] [held 3 (.catalogue (access (.page 0) .read .walk))]).onCore fun c =>
      c.onRsv fun v => { v with current := some r }
    HoldsAccess s.core 3 (access (.page 0) .read .walk) ∧ s.core.rsv.current = some r ∧ r.phase = .walking 0 ∧
      (r.segs[0]?).isSome = true := ⟨by simp only [HoldsAccess]; decide +kernel, rfl, rfl, by decide +kernel⟩

theorem witness_PlainRequestsEnd :
    let p (k : PlainKind) : PlainReq := { kind := k, frame := none, live := true, data := [] }
    (moving [] [held 0 (.plain (p .flush))]).core.dlp.table = [held 0 (.plain (p .flush))] ∧
      (held 0 (.plain (p .pass))).tag = 0 ∧ (held 0 (.plain (p .identify))).body = .plain (p .identify) ∧
      base.core.ctp.placement.reported < 2 ^ 64 := by decide

/-! #### Catalogue content that verifies -/

/-- The part with a tag key. -/
def keys0 : Keys := { root := 0, wrapping := 0, tag := 0 }

/-- A state in which the drive holds one catalogue access under tag 3. -/
def reading (s : State) (a : Access) : State :=
  s.onCore fun c => (c.onDlp fun d => { d with table := [held 3 (.catalogue a)] }).onKst fun k => { k with keys := some keys0 }

theorem holds_reading (s : State) (a : Access) : HoldsAccess (reading s a).core 3 a := rfl

/-- A header, a map page that maps AU 1 to region 9, and a LIVE key record. -/
def header0 : Header := { complete := true, identity := 5, capacity := 4194304, policy := .clear }
def page0 : List MapEntry := [.unassigned, .region 9 false] ++ List.replicate 118 .unassigned
def key4 : KeyRec := { live := true, unit := 1, count := 1, wrapped := 77 }

theorem verifies_header (c : Ctp) : verifySector (some keys0) c .header (writtenSector (some keys0) c .header (.header header0)) =
    some (.header header0) := by
  have hi : identityFor c .header (writtenSector (some keys0) c .header (.header header0)).toNat =
      identityFor c .header header0.encode := by
    simp only [identityFor, headerIdentity, writtenSector, CatContent.encode, field_sealSector _ _ _ _ 16 8 (by decide)]
    decide +kernel
  rw [verifySector, hi]
  simp only [writtenSector, CatContent.encode, tagVerifies_sealSector, if_true, decodeContent]
  rw [headerDecode_congr _ (header0.encode % 2 ^ 3968) fun o w h => field_sealSector _ _ _ _ o w h]
  decide +kernel
theorem verifies_page (c : Ctp) : verifySector (some keys0) c (.page 0) (writtenSector (some keys0) c (.page 0) (.page page0)) =
    some (.page page0) := by
  simp only [verifySector, writtenSector, identityFor, tagVerifies_sealSector, if_true, decodeContent]
  rw [sealSector_toNat, decodePage_below]
  decide +kernel
theorem verifies_descOf (c : Ctp) (r : Nat) (d : Desc) (h : Desc.decode (d.encode % 2 ^ 3968) = some d) :
    verifySector (some keys0) c (.desc r) (writtenSector (some keys0) c (.desc r) (.desc d)) = some (.desc d) := by
  simp only [verifySector, writtenSector, CatContent.encode, identityFor, tagVerifies_sealSector, if_true, decodeContent]
  rw [descDecode_congr _ (d.encode % 2 ^ 3968) fun o w h => field_sealSector _ _ _ _ o w h, h]
  rfl
theorem verifies_desc (c : Ctp) : verifySector (some keys0) c (.desc 9) (writtenSector (some keys0) c (.desc 9) (.desc desc9)) =
    some (.desc desc9) := verifies_descOf c 9 desc9 (by decide +kernel)
theorem verifies_keyOf (c : Ctp) (n : Nat) (k : KeyRec) (h : KeyRec.decode (k.encode % 2 ^ 3968) = some k) :
    verifySector (some keys0) c (.key n) (writtenSector (some keys0) c (.key n) (.key k)) = some (.key k) := by
  simp only [verifySector, writtenSector, CatContent.encode, identityFor, tagVerifies_sealSector, if_true, decodeContent]
  rw [keyDecode_congr _ (k.encode % 2 ^ 3968) fun o w h => field_sealSector _ _ _ _ o w h, h]
  rfl
theorem verifies_key (c : Ctp) : verifySector (some keys0) c (.key 4) (writtenSector (some keys0) c (.key 4) (.key key4)) =
    some (.key key4) := verifies_keyOf c 4 key4 (by decide +kernel)

/-- The request in progress reads a sector under tag 3, and the drive gives this content of it. -/
def jobAt (j : Job) (x : CatSector) : State := reading (base.onCore (setJob j)) (access x .read .request)
def sectorFor (j : Job) (x : CatSector) (y : CatContent) : Sector := writtenSector (some keys0) (jobAt j x).core.ctp x y

theorem reads_desc (j : Job) (r : Nat) (d : Desc) (h : Desc.decode (d.encode % 2 ^ 3968) = some d) :
    JobReads (jobAt j (.desc r)) 3 (sectorFor j (.desc r) (.desc d)) j (.desc r) (.desc d) :=
  ⟨by simp [jobAt, reading, base, State.onCore, Core.onDlp, Core.onKst, setJob, Core.onMgw], ⟨_, rfl, rfl, rfl, rfl⟩, rfl,
    verifies_descOf _ r d h⟩
theorem reads_key (j : Job) (n : Nat) (k : KeyRec) (h : KeyRec.decode (k.encode % 2 ^ 3968) = some k) :
    JobReads (jobAt j (.key n)) 3 (sectorFor j (.key n) (.key k)) j (.key n) (.key k) :=
  ⟨by simp [jobAt, reading, base, State.onCore, Core.onDlp, Core.onKst, setJob, Core.onMgw], ⟨_, rfl, rfl, rfl, rfl⟩, rfl,
    verifies_keyOf _ n k h⟩
theorem reads_page (j : Job) :
    JobReads (jobAt j (.page 0)) 3 (sectorFor j (.page 0) (.page page0)) j (.page 0) (.page page0) :=
  ⟨by simp [jobAt, reading, base, State.onCore, Core.onDlp, Core.onKst, setJob, Core.onMgw], ⟨_, rfl, rfl, rfl, rfl⟩, rfl,
    verifies_page _⟩
theorem reads_header (j : Job) :
    JobReads (jobAt j .header) 3 (sectorFor j .header (.header header0)) j .header (.header header0) :=
  ⟨by simp [jobAt, reading, base, State.onCore, Core.onDlp, Core.onKst, setJob, Core.onMgw], ⟨_, rfl, rfl, rfl, rfl⟩, rfl,
    verifies_header _⟩

/-- Descriptors of region 9 in other states, and one of a RING of AU 1 with 60 minutes. -/
def sealed9 : Desc := { desc9 with state := .sealed, cls := .once }
def forward9 : Desc := { desc9 with state := .forward, forward := some 7 }
def ringDesc9 : Desc := { desc9 with kind := .ring, cls := .never, ring := some { firstAu := 1, auCount := 1, minutes := 60 } }

theorem witness_CheckRefuses_desc :
    JobReads (jobAt (Job.start (.unseal 9) .checkDesc) (.desc 9)) 3
      (sectorFor (Job.start (.unseal 9) .checkDesc) (.desc 9) (.desc sealed9)) (Job.start (.unseal 9) .checkDesc) (.desc 9)
      (.desc sealed9) ∧ sealed9.cls ≠ .free ∧
    JobReads (jobAt (Job.start (.seal 9) .checkDesc) (.desc 9)) 3
      (sectorFor (Job.start (.seal 9) .checkDesc) (.desc 9) (.desc forward9)) (Job.start (.seal 9) .checkDesc) (.desc 9)
      (.desc forward9) ∧ forward9.state ≠ .opened ∧ forward9.state ≠ .sealed :=
  ⟨reads_desc _ 9 _ (by decide +kernel), by decide, reads_desc _ 9 _ (by decide +kernel), by decide, by decide⟩
theorem witness_CheckRefuses_page :
    let j := Job.start (.setClear 1 1) .checkPages
    JobReads (jobAt j (.page 0)) 3 (sectorFor j (.page 0) (.page page0)) j (.page j.index) (.page page0) ∧
      page0[1]? = some (.region 9 false) ∧ 1 ≤ 120 * j.index + 1 ∧ 120 * j.index + 1 < 1 + 1 :=
  ⟨reads_page _, rfl, by decide, by decide⟩
theorem witness_CheckRefuses_names :
    let j := { Job.start (.assign 8 false 1 1) .checkNames with descA := some { desc9 with key := 5 } }
    JobReads (jobAt j (.desc 9)) 3 (sectorFor j (.desc 9) (.desc desc9)) j (.desc 9) (.desc desc9) ∧
      desc9.state ≠ .empty ∧ desc9.state ≠ .retired ∧ some desc9.key ≠ j.descA.map Desc.key ∧
    JobReads (jobAt j (.desc 9)) 3 (sectorFor j (.desc 9) (.desc Desc.blank)) j (.desc 9) (.desc Desc.blank) ∧
      Desc.blank.state = .empty :=
  ⟨reads_desc _ 9 _ (by decide +kernel), by decide, by decide, by decide, reads_desc _ 9 _ (by decide +kernel), rfl⟩
/-- CREATE's parameters: a RECORDING under NEW 4, and the same under SHARE 8. -/
def create9 (share : Bool) : CreateParams :=
  { region := 9, kind := .recording, cls := .free, unit := 8, share := share, source := if share then 8 else 4, firstAu := 0,
    auCount := 0, minutes := 0 }
theorem witness_CheckRefuses_create :
    let j := { Job.start (.create (create9 false)) .checkRecount with index := 4095 }
    let j' := Job.start (.create (create9 true)) .checkSource
    let k := { Job.start (.create (create9 true)) .checkSourceKey with descB := some desc9 }
    JobReads (jobAt j (.desc 4095)) 3 (sectorFor j (.desc 4095) (.desc desc9)) j (.desc 4095) (.desc desc9) ∧
      desc9.key = (create9 false).source ∧ desc9.state ≠ .empty ∧ desc9.state ≠ .retired ∧
    JobReads (jobAt j' (.desc 8)) 3 (sectorFor j' (.desc 8) (.desc desc9)) j' (.desc 8) (.desc desc9) ∧
      desc9.unit ≠ (create9 true).unit ∧
    JobReads (jobAt k (.key 4)) 3 (sectorFor k (.key 4) (.key { key4 with count := 4095 })) k (.key 4)
      (.key { key4 with count := 4095 }) :=
  ⟨reads_desc _ 4095 _ (by decide +kernel), rfl, by decide, by decide, reads_desc _ 8 _ (by decide +kernel), by decide,
    reads_key _ 4 _ (by decide +kernel)⟩
theorem witness_CheckRefuses_join :
    let j (a b : Desc) (f : Bool) := { Job.start (.join 1 4095) .checkAll with
      index := 4095, descA := some a, descB := some b, forwardFound := f }
    JobReads (jobAt (j desc9 desc9 true) (.desc 4095)) 3 (sectorFor (j desc9 desc9 true) (.desc 4095) (.desc desc9))
      (j desc9 desc9 true) (.desc 4095) (.desc desc9) ∧
      (if 1 = 4095 then some desc9 else (j sealed9 desc9 true).descA) = some sealed9 ∧ sealed9.cls ≠ desc9.cls ∧
      sealed9.key = desc9.key ∧ sealed9.unit = desc9.unit ∧ { desc9 with key := 5 }.key ≠ desc9.key :=
  ⟨reads_desc _ 4095 _ (by decide +kernel), rfl, by decide, rfl, rfl, by decide⟩
theorem witness_CheckRefuses_purge :
    let j := { Job.start (.purge 4095) .checkRecount with index := 4094 }
    let d := { forward9 with forward := some 4095 }
    let i := { Job.start (.purge 9) .checkTarget with descA := some forward9 }
    JobReads (jobAt j (.desc 4094)) 3 (sectorFor j (.desc 4094) (.desc d)) j (.desc 4094) (.desc d) ∧ d.forward = some 4095 ∧
    JobReads (jobAt i (.desc 7)) 3 (sectorFor i (.desc 7) (.desc { desc9 with unit := 8 })) i (.desc 7)
      (.desc { desc9 with unit := 8 }) ∧ { desc9 with unit := 8 }.unit ≠ forward9.unit :=
  ⟨reads_desc _ 4094 _ (by decide +kernel), rfl, reads_desc _ 7 _ (by decide +kernel), by decide⟩
theorem witness_RingRequestsTakeEffect_read :
    let j := Job.start (.ringAttach 9 3) .checkDesc
    let k := Job.start (.ringRetention 9 59) .checkDesc
    JobReads (jobAt j (.desc 9)) 3 (sectorFor j (.desc 9) (.desc ringDesc9)) j (.desc 9) (.desc ringDesc9) ∧
    JobReads (jobAt k (.desc 9)) 3 (sectorFor k (.desc 9) (.desc ringDesc9)) k (.desc 9) (.desc ringDesc9) ∧
    JobReads (jobAt j (.desc 9)) 3 (sectorFor j (.desc 9) (.desc desc9)) j (.desc 9) (.desc desc9) ∧
      ringDesc9.state = .opened ∧ ringDesc9.kind = .ring ∧ desc9.kind ≠ .ring ∧
      (jobAt j (.desc 9)).core.rings.length = 4 :=
  ⟨reads_desc _ 9 _ (by decide +kernel), reads_desc _ 9 _ (by decide +kernel), reads_desc _ 9 _ (by decide +kernel), rfl, rfl,
    by decide, rfl⟩
theorem witness_RingRequestsTakeEffect_written :
    let a := access (.desc 9) (.write zeroSector (.edit 9)) .request
    let s := reading (working (ringed base) (.ringRetention 9 59) .writeDesc) a
    s.core.dlp.link ≠ .lost ∧ HoldsAccess s.core 3 a ∧ a.dir = .write zeroSector (.edit 9) ∧
      s.core.mgw.job = some (Job.start (.ringRetention 9 59) .writeDesc) ∧ ringCtx 1 s.core = some ring9 ∧
      ring9.region = 9 := ⟨by decide, rfl, rfl, rfl, rfl, rfl⟩

/-- Without a tag key nothing verifies (R19). -/
theorem verifies_nothing (c : Ctp) (x : CatSector) (s : Sector) : verifySector none c x s = none := rfl

theorem witness_CatalogueReads_startUp :
    let a := access .header .read .startUp
    let s := reading base a
    s.core.dlp.link ≠ .lost ∧ HoldsAccess s.core 3 a ∧ a.dir = .read ∧
      verifySector s.core.kst.keys s.core.ctp .header (writtenSector (some keys0) s.core.ctp .header (.header header0)) =
        some (.header header0) ∧ header0.complete = true ∧ header0.capacity = s.core.ctp.placement.usable :=
  ⟨by decide, rfl, rfl, verifies_header _, rfl, by decide⟩
theorem witness_CatalogueReads_walk :
    let x : Xfer := { id := 3, tag := .untagged, kind := .read, start := 70000, count := 1, ranges := [] }
    let g : Seg := { newSeg base.set (70000, 1) with looked := true }
    let r : Resolution := { cmd := x, segs := [g], memo := [], phase := .walking 0, updates := [] }
    let a := access (.page 0) .read .walk
    let s := reading (base.onCore fun c => c.onRsv fun v => { v with current := some r }) a
    HoldsAccess s.core 3 a ∧ s.core.rsv.current = some r ∧ r.segs[0]? = some g ∧ a.sector = .page (g.au / 120) ∧
      verifySector s.core.kst.keys s.core.ctp (.page 0) (writtenSector (some keys0) s.core.ctp (.page 0) (.page page0)) =
        some (.page page0) ∧ page0[g.au % 120]? = some (.region 9 false) ∧ g.window = none ∧ g.looked = true ∧
      memoDesc r.memo 9 = none := ⟨rfl, rfl, rfl, by decide, verifies_page _, by decide, by decide, rfl, by decide⟩
theorem witness_CatalogueReads_damaged :
    let a := access (.desc 9) .read .request
    let s := (reading (working base (.readRegion 9) .checkDesc) a).onCore fun c => c.onKst fun k => { k with keys := none }
    HoldsAccess s.core 3 a ∧ s.core.mgw.job = some (Job.start (.readRegion 9) .checkDesc) ∧
      (Job.start (.readRegion 9) .checkDesc).stage ≠ .checkRecount ∧
      verifySector s.core.kst.keys s.core.ctp a.sector zeroSector = none := ⟨rfl, rfl, by decide, rfl⟩
theorem witness_CatalogueReads_readRegion :
    let a := access (.desc 9) .read .request
    let s := reading (working base (.readRegion 9) .checkDesc) a
    HoldsAccess s.core 3 a ∧ s.core.mgw.job = some (Job.start (.readRegion 9) .checkDesc) ∧
      verifySector s.core.kst.keys s.core.ctp a.sector (writtenSector (some keys0) s.core.ctp (.desc 9) (.desc desc9)) =
        some (.desc desc9) := ⟨rfl, rfl, verifies_desc _⟩

/-- Slots of which slot 0 loads record 4. -/
def loadingSlots : List Slot :=
  { Slot.emptySlot with state := .loading, record := some 4 } :: List.replicate 23 Slot.emptySlot
def loadingKst (k : Kst) : Kst := { k with slots := loadingSlots }

theorem slotsOk_loading (k : Kst) (h : k.reuse = []) : SlotsOk (loadingKst k) := by
  refine ⟨rfl, ?_, ?_, ?_, ?_, ?_⟩
  · show ∀ i < 24, (loadingSlots.getD i Slot.emptySlot).shapeOk = true
    decide +kernel
  · show ∀ i < 24, ∀ j < 24, (loadingSlots.getD i Slot.emptySlot).serves.isSome = true →
      (loadingSlots.getD i Slot.emptySlot).serves = (loadingSlots.getD j Slot.emptySlot).serves → i = j
    decide +kernel
  · show k.reuse.Nodup
    simp [h]
  · show ∀ i ∈ k.reuse, i < 24
    simp [h]
  · show ∀ i < 24, (i ∈ k.reuse ↔ _)
    rw [h]
    show ∀ i < 24, (i ∈ ([] : List Nat) ↔ (loadingSlots.getD i Slot.emptySlot).state = .ready ∧
      (loadingSlots.getD i Slot.emptySlot).use = 0)
    decide +kernel

theorem witness_CatalogueReads_keyLoad :
    let a := access (.key 4) .read (.keyLoad 0)
    let s := reading (base.onCore fun c => c.onKst loadingKst) a
    HoldsAccess s.core 3 a ∧ (s.core.kst.slot 0).state = .loading ∧ (s.core.kst.slot 0).record = some 4 ∧
      SlotsOk s.core.kst ∧ (∀ l ∈ s.core.ctp.locks, l.sector ≠ .key 4) ∧ loadWaiter 0 s.core = none ∧ key4.live = true ∧
      verifySector s.core.kst.keys s.core.ctp a.sector (writtenSector (some keys0) s.core.ctp (.key 4) (.key key4)) =
        some (.key key4) :=
  ⟨rfl, rfl, rfl, slotsOk_loading { base.core.kst with keys := some keys0 } rfl, by decide, rfl, rfl, verifies_key _⟩
theorem witness_CatalogueReads_keyLost :
    let x : Xfer := { id := 3, tag := .untagged, kind := .read, start := 70000, count := 1, ranges := [] }
    let g := newSeg base.set (70000, 1)
    let r : Resolution := { cmd := x, segs := [g], memo := [], phase := .loadWait 0 0 true, updates := [] }
    let s := (reading ((base.onCore fun c => c.onKst loadingKst).onCore fun c => c.onRsv fun v => { v with current := some r })
      (access (.key 4) .read (.keyLoad 0))).onCore fun c => c.onKst fun k => { k with keys := none }
    verifySector s.core.kst.keys s.core.ctp (.key 4) zeroSector = none ∧ loadWaiter 0 s.core = some (0, true) ∧
      s.core.rsv.current = some r ∧ r.segs[0]? = some g := ⟨rfl, rfl, rfl, rfl⟩

/-- A key load that ends READY for the request that waits on it, of the record's unit size and of another. -/
theorem witness_CatalogueReads_granted (unit : Nat) :
    let info := { regionInfo 9 none desc9 with unit := unit }
    let g := { newSeg base.set (70000, 1) with
      disp := some .cipher, entry := some { au := 1, protect := false, region := some info } }
    let r : Resolution := { cmd := { id := 3, tag := .untagged, kind := .read, start := 70000, count := 1, ranges := [] },
                            segs := [g], memo := [], phase := .loadWait 0 0 true, updates := [] }
    let a := access (.key 4) .read (.keyLoad 0)
    let s := reading ((base.onCore fun c => c.onKst loadingKst).onCore fun c => c.onRsv fun v => { v with current := some r }) a
    HoldsAccess s.core 3 a ∧ SlotsOk s.core.kst ∧ loadWaiter 0 s.core = some (0, true) ∧ r.segs[0]? = some g ∧
      g.disp = some .cipher ∧ g.slot = none ∧ g.entry.bind CacheEntry.region = some info ∧ info.key = 4 ∧
      r.segs.length = 0 + 1 ∧ key4.live = true ∧ (key4.unit = info.unit ↔ unit = 1) ∧
      verifySector s.core.kst.keys s.core.ctp a.sector (writtenSector (some keys0) s.core.ctp (.key 4) (.key key4)) =
        some (.key key4) :=
  ⟨rfl, slotsOk_loading { base.core.kst with keys := some keys0 } rfl, rfl, rfl, rfl, rfl, rfl, rfl, rfl, rfl, eq_comm,
    verifies_key _⟩
/-- The locked read of a flag update that serves one segment, of a READ and of a WRITE. -/
theorem witness_CatalogueReads_flag (k : CmdKind) (h : k = .read ∨ k = .write) :
    let g := { newSeg base.set (70000, 1) with
      disp := some .cipher, entry := some { au := 1, protect := true, region := some (regionInfo 9 none desc9) } }
    let r : Resolution := { cmd := { id := 3, tag := .untagged, kind := k, start := 70000, count := 1, ranges := [] },
                            segs := [g], memo := [], phase := .flagRead 9, updates := [9] }
    let a := access (.desc 9) .read .flagUpdate
    let s := reading (base.onCore fun c => c.onRsv fun v => { v with current := some r }) a
    HoldsAccess s.core 3 a ∧ s.core.rsv.current = some r ∧ r.segs = [] ++ g :: [] ∧
      (k = .read ∧ (regionInfo 9 none desc9).played = false ∨
        k = .write ∧ g.disp = some .cipher ∧ (regionInfo 9 none desc9).written = false) ∧
      (∀ d ∈ [desc9, sealed9, { forward9 with state := .retired, forward := none }, forward9, { desc9 with played := true },
          { desc9 with unit := 8 }],
        verifySector s.core.kst.keys s.core.ctp a.sector (writtenSector (some keys0) s.core.ctp (.desc 9) (.desc d)) =
          some (.desc d)) := by
  refine ⟨rfl, rfl, rfl, h.imp (fun h => ⟨h, rfl⟩) fun h => ⟨h, rfl, rfl⟩, fun d hd => verifies_descOf _ 9 d ?_⟩
  simp only [List.mem_cons, List.not_mem_nil, or_false] at hd
  rcases hd with rfl | rfl | rfl | rfl | rfl | rfl <;> decide +kernel

theorem witness_EditsWriteTheirChange_desc :
    let j := Job.start (.seal 9) .writeDesc
    let i := Job.start (.purge 9) .writeLast
    let m := Job.start (.ringRetention 9 59) .writeDesc
    let n := { Job.start (.create (create9 true)) .writeDesc with descB := some sealed9 }
    JobReads (jobAt j (.desc 9)) 3 (sectorFor j (.desc 9) (.desc desc9)) j (.desc 9) (.desc desc9) ∧
    JobReads (jobAt i (.desc 9)) 3 (sectorFor i (.desc 9) (.desc desc9)) i (.desc 9) (.desc desc9) ∧
    JobReads (jobAt m (.desc 9)) 3 (sectorFor m (.desc 9) (.desc ringDesc9)) m (.desc 9) (.desc ringDesc9) ∧
    JobReads (jobAt n (.desc 9)) 3 (sectorFor n (.desc 9) (.desc Desc.blank)) n (.desc 9) (.desc Desc.blank) ∧
      j.stage = .writeDesc ∧ i.stage = .writeLast ∧ n.descB = some sealed9 :=
  ⟨reads_desc _ 9 _ (by decide +kernel), reads_desc _ 9 _ (by decide +kernel), reads_desc _ 9 _ (by decide +kernel),
    reads_desc _ 9 _ (by decide +kernel), rfl, rfl, rfl⟩
theorem witness_EditsWriteTheirChange_page :
    let j := Job.start (.unassign 1 1) .writePages
    let new (au : Nat) (e : MapEntry) : MapEntry := if 1 ≤ au ∧ au < 1 + 1 then .unassigned else e
    let i := Job.start (.join 8 9) .writePages
    let l : Lock := { sector := .page 0, holder := .request, since := 0 }
    JobReads (jobAt j (.page 0)) 3 (sectorFor j (.page 0) (.page page0)) j (.page j.index) (.page page0) ∧
      (page0.zipIdx (120 * j.index)).filterMap (fun y => if new y.2 y.1 = y.1 then none else some y.2) = [1] ∧
    JobReads (jobAt i (.page 0)) 3 (sectorFor i (.page 0) (.page page0)) i (.page i.index) (.page page0) ∧
      (withCtp fun p => { p with locks := [l] }).core.ctp.locks = [l] := ⟨reads_page _, by decide +kernel, reads_page _, rfl⟩
theorem witness_EditsWriteTheirChange_key :
    let j := { Job.start (.delete 9) .writeKey with descA := some desc9 }
    let i := { Job.start (.purge 9) .writeKey with descA := some desc9 }
    let c := Job.start (.create (create9 false)) .writeKey
    JobReads (jobAt j (.key 4)) 3 (sectorFor j (.key 4) (.key key4)) j (.key 4) (.key key4) ∧ j.keyRecord = 4 ∧
    JobReads (jobAt i (.key 4)) 3 (sectorFor i (.key 4) (.key key4)) i (.key 4) (.key key4) ∧ i.keyRecord = 4 ∧
      i.recount < key4.count ∧ c.keyRecord = 4 ∧
    JobReads (jobAt j (.key 4)) 3 (sectorFor j (.key 4) (.key (KeyRec.blank 1))) j (.key 4) (.key (KeyRec.blank 1)) :=
  ⟨reads_key _ 4 _ (by decide +kernel), rfl, reads_key _ 4 _ (by decide +kernel), rfl, by decide, rfl,
    reads_key _ 4 _ (by decide +kernel)⟩
theorem witness_EditsWriteTheirChange_header :
    let j := Job.start (.setPolicy .noAccess) .writeHeader
    JobReads (jobAt j .header) 3 (sectorFor j .header (.header header0)) j .header (.header header0) := reads_header _

theorem witness_CatalogueWrites_edit :
    let a := access (.desc 9) (.write zeroSector (.edit 9)) .request
    let s := reading (working base (.unseal 9) .writeDesc) a
    s.core.dlp.link ≠ .lost ∧ HoldsAccess s.core 3 a ∧ a.dir = .write zeroSector (.edit 9) ∧
      s.core.mgw.job = some (Job.start (.unseal 9) .writeDesc) := ⟨by decide, rfl, rfl, rfl⟩
theorem witness_CatalogueWrites_drain :
    let a := access (.desc 9) (.write zeroSector (.edit 9)) .request
    let e := txEntry .read [{ planSeg 70000 1 .cipher 1 with region := some 8, forward := some 9 }] .moving []
    let j (q : Request) := Job.start q .writeDesc
    let s := reading (working base (.seal 9) .writeDesc) a
    let t := s.onCore fun c => c.onTxe fun x => { x with list := [e] }
    HoldsAccess s.core 3 a ∧ s.core.mgw.job = some (j (.seal 9)) ∧ s.core.txe.list = [] ∧ s.core.rsv.current = none ∧
      HoldsAccess t.core 3 a ∧ t.core.mgw.job = some (j (.seal 9)) ∧ t.core.txe.list = [e] ∧
      (∃ g ∈ e.plan, g.forward = some 9) ∧
      (reading (working base (.delete 9) .writeDesc) a).core.mgw.job = some (j (.delete 9)) :=
  ⟨rfl, rfl, rfl, rfl, rfl, rfl, rfl, ⟨_, List.mem_singleton_self _, rfl⟩, rfl⟩
theorem witness_CatalogueWrites_format :
    let a := access .header (.write zeroSector .none) .format
    let first := { Job.start (.format .clear) .formatFirst with identity := 5, outstanding := 1 }
    let at' (index left : Nat) : Job :=
      { Job.start (.format .clear) .formatRecords with identity := 5, index := index, outstanding := left }
    let s (j : Job) : State := (reading base a).onCore (setJob j)
    (∀ j, HoldsAccess (s j).core 3 a ∧ (s j).core.mgw.job = some j) ∧ first.req = .format .clear ∧ first.failed = false ∧
      (at' 1022 2).index < 1023 ∧ 5118 ≤ (at' 5118 2).index ∧ 6211 ≤ (at' 6211 2).index ∧ 1 < (at' 6211 2).outstanding ∧
      (at' 6211 1).outstanding ≤ 1 ∧ { at' 9 1 with failed := true }.failed = true :=
  ⟨fun _ => ⟨rfl, rfl⟩, rfl, rfl, by decide, by decide, by decide, by decide, by decide, rfl⟩
theorem witness_CatalogueWrites_page :
    let a := access (.page 0) (.write zeroSector (.page 0 [1])) .request
    let g := { newSeg base.set (70000, 1) with used := [.page 0, .desc 9] }
    let r : Resolution := { cmd := { id := 3, tag := .untagged, kind := .read, start := 70000, count := 1, ranges := [] },
                            segs := [g], memo := [], phase := .slotWait 0, updates := [] }
    let s := (reading (working base (.unassign 1 1) .writePages) a).onCore fun c => c.onRsv fun v => { v with current := some r }
    HoldsAccess s.core 3 a ∧ s.core.mgw.job = some (Job.start (.unassign 1 1) .writePages) ∧ s.core.rsv.current = some r ∧
      r.segs[0]? = some g ∧ .page 0 ∈ g.used := ⟨rfl, rfl, rfl, rfl, by decide⟩
theorem witness_CatalogueWrites_delete :
    let j := { Job.start (.delete 9) .writeKey with descA := some desc9 }
    let a := access (.key 4) (.write zeroSector (.key 4 false)) .request
    let s := (reading (base.onCore fun c => c.onKst loadingKst) a).onCore (setJob j)
    HoldsAccess s.core 3 a ∧ s.core.mgw.job = some j ∧ j.keyRecord = 4 ∧ SlotsOk s.core.kst ∧ j.keyCount = 0 :=
  ⟨rfl, rfl, rfl, slotsOk_loading { base.core.kst with keys := some keys0 } rfl, rfl⟩
theorem witness_CatalogueWrites_policy_format :
    let a := access .header (.write zeroSector .none) .request
    let f := access .header (.write zeroSector .none) .format
    HoldsAccess (reading (working base (.setPolicy .clear) .writeHeader) a).core 3 a ∧
      (Job.start (.setPolicy .clear) .writeHeader).stage = .writeHeader ∧
      HoldsAccess (reading (working base (.format .clear) .formatLast) f).core 3 f ∧
      (Job.start (.format .clear) .formatLast).failed = false := ⟨rfl, rfl, rfl, rfl⟩
/-- The write of the played flag of region 9, for a READ in resolution that walked to it. -/
def flagWrite9 : Access := access (.desc 9) (.write zeroSector (.flags 9 true false { desc9 with played := true })) .flagUpdate
def seg9 : Seg :=
  { first := 70000, count := 1, au := 1, window := none, looked := true, walked := true, used := [.page 0, .desc 9],
    stale := false, disp := some .cipher, entry := some { au := 1, protect := false, region := some (regionInfo 9 none desc9) },
    ctx := none, slot := none }
def flagWriting : State :=
  (reading base flagWrite9).onCore fun c =>
    (c.onCtp fun p => { p with locks := [{ sector := .desc 9, holder := .resolver, since := 0 }], seq := 1 }).onRsv fun v =>
      { v with current := some (resolving [seg9] (.flagWrite 9)) }
theorem witness_CatalogueWrites_flag :
    let l : Lock := { sector := .desc 9, holder := .resolver, since := 0 }
    HoldsAccess flagWriting.core 3 flagWrite9 ∧ l ∈ flagWriting.core.ctp.locks ∧ l.sector = flagWrite9.sector ∧
      l.since < flagWriting.core.ctp.seq ∧ FlagUpdateOk flagWriting.core := by
  have h : ∀ a ∈ flagAccesses flagWriting.core, a = flagWrite9 := fun a ha => List.mem_singleton.mp ha
  refine ⟨rfl, by decide, rfl, by decide, ⟨Nat.le_refl 1, ?_, ?_, by decide, (fun w hw => nomatch hw), ?_, ?_⟩⟩
  · intro a ha hd
    obtain rfl := h a ha
    cases hd
  · intro a ha data n hd
    obtain rfl := h a ha
    cases hd
    exact ⟨_, 9, _, rfl, rfl, rfl, rfl, fun _ => rfl, fun h => by cases h⟩
  · intro r hr hk
    cases hr
    cases hk
  · intro r i hr hp
    cases hr
    cases hp

/-! #### Resolution, waits, transfers -/

/-- A transfer command at the head of the resolution queue. -/
def xfer (kind : CmdKind) (start count : Nat) (ranges : List (Nat × Nat)) : Xfer :=
  { id := 3, tag := .untagged, kind := kind, start := start, count := count, ranges := ranges }
def queued (s : State) (x : Xfer) : State := s.onCore fun c => c.onRsv fun r => { r with queue := [x] }
/-- The settings with window 0 over every AU. -/
def windowed (a : WindowAction) : State :=
  { base with set := { base.set with windows := [{ enable := true, base := 0, mask := 131071, action := a }] } }

theorem witness_ResolutionSettles_discard :
    let x := xfer .discard 0 1 [(0, 0), (5, 3), (rc - 1, 2)]
    (queued base x).core.rsv.queue = x :: [] ∧ (queued base x).core.rsv.current = none ∧
      x.ranges = [(0, 0), (5, 3)] ++ (rc - 1, 2) :: [] ∧ base.core.ctp.placement.reported ≤ rc - 1 + 2 - 1 ∧
      (∀ p ∈ [(0, 0), (5, 3)], p.2 = 0 ∨ p.1 + p.2 - 1 < base.core.ctp.placement.reported) := by decide
theorem witness_ResolutionSettles_windows :
    windowFor (windowed .noAccess).set.windows 1 = some .noAccess ∧
    windowFor (windowed .clearProtected).set.windows 1 = some .clearProtected ∧
    (∀ u < 131072, 1 ≤ u → u ≤ 2 → windowFor (windowed .clear).set.windows u = some .clear) ∧
    (131000 + 2000 - 1) / 65536 = 2 ∧ 131000 / 65536 = 1 := by
  refine ⟨by decide, by decide, ?_, by decide, by decide⟩
  intro u _ h1 h2
  obtain rfl | rfl : u = 1 ∨ u = 2 := by omega
  · decide
  · decide
theorem witness_ResolutionSettles_lookup :
    let x := xfer .write 70000 1 []
    windowFor base.set.windows (x.start / 65536) = none ∧ (base.core.rsv.cacheSet 1).hit 1 = none ∧
      base.core.ctp.state = .ready ∧ State.reset.core.ctp.state ≠ .ready := by decide
/-- The part with AU 1 of region 9 in the cache, and its key in slot 0. -/
def entry9 (protect : Bool) : CacheEntry :=
  { au := 1, protect := protect, region := some (regionInfo 9 none { desc9 with played := true }) }
def cached (protect : Bool) : State :=
  base.onCore fun c => { c with
    rsv := { c.rsv with
      cache := c.rsv.cache.set 1 { ways := [some (entry9 protect), none, none, none], counter := 0 } }
    kst := { c.kst with
      slots := { Slot.emptySlot with state := .ready, record := some 4, key := some 0 } :: List.replicate 23 Slot.emptySlot
      reuse := [0] } }
theorem witness_ResolutionSettles_hit :
    (((cached true).core.rsv.cacheSet 1).hit 1).map CacheEntry.protect = some true ∧
    ((((cached false).core.rsv.cacheSet 1).hit 1).bind CacheEntry.region).map (fun i => (i.kind, i.played, i.key)) =
      some (.recording, true, 4) ∧
    (cached false).core.kst.holding 4 = some 0 ∧ ((cached false).core.kst.slot 0).state = .ready ∧
    ((cached false).core.kst.slot 0).unit = 1 ∧ (131071 + 1 - 1) / 65536 = 1 := by decide +kernel

theorem witness_SlotRequestsAnswered_miss :
    let g := { newSeg base.set (70000, 1) with
      disp := some .cipher, entry := some { au := 1, protect := false, region := some (regionInfo 9 none { desc9 with key := 5 }) } }
    let k := loadingKst base.core.kst
    g.entry.bind CacheEntry.region = some (regionInfo 9 none { desc9 with key := 5 }) ∧ g.disp = some .cipher ∧ g.slot = none ∧
      (∀ m < 24, (k.slot m).serves ≠ some 5) ∧ SlotsOk k ∧ (k.slot 1).state = .empty ∧ (∀ m < 1, (k.slot m).state ≠ .empty) :=
  ⟨rfl, rfl, rfl, by decide +kernel, slotsOk_loading _ rfl, by decide +kernel⟩
/-- Slots that are all CLEARING: none can be chosen. -/
def clearingSlots : List Slot := List.replicate 24 { Slot.emptySlot with state := .clearing, key := some 0, use := 1 }
theorem witness_SlotRequestsAnswered_none :
    let k := { base.core.kst with slots := clearingSlots }
    SlotsOk k ∧ k.reuse = [] ∧ ∀ m < 24, (k.slot m).state ≠ .empty := by
  refine ⟨⟨rfl, ?_, ?_, List.nodup_nil, ?_, ?_⟩, rfl, ?_⟩
  · show ∀ i < 24, (clearingSlots.getD i Slot.emptySlot).shapeOk = true
    decide +kernel
  · show ∀ i < 24, ∀ j < 24, (clearingSlots.getD i Slot.emptySlot).serves.isSome = true →
      (clearingSlots.getD i Slot.emptySlot).serves = (clearingSlots.getD j Slot.emptySlot).serves → i = j
    decide +kernel
  · show ∀ i ∈ ([] : List Nat), i < 24
    simp
  · show ∀ i < 24, (i ∈ ([] : List Nat) ↔ (clearingSlots.getD i Slot.emptySlot).state = .ready ∧
      (clearingSlots.getD i Slot.emptySlot).use = 0)
    decide +kernel
  · show ∀ m < 24, (clearingSlots.getD m Slot.emptySlot).state ≠ .empty
    decide +kernel
theorem witness_SlotRequestsAnswered_reread :
    let s := base.onCore fun c => c.onKst fun k =>
      { k with slots := { Slot.emptySlot with state := .loading, record := some 4, reread := true } :: List.replicate 23 Slot.emptySlot }
    s.core.kst.slots.length = 24 ∧ (s.core.kst.slot 0).state = .loading ∧ (s.core.kst.slot 0).record = some 4 ∧
      (s.core.kst.slot 0).reread = true ∧ ∀ l ∈ s.core.ctp.locks, l.sector ≠ .key 4 := by decide +kernel

theorem witness_WaitsEnd_lock :
    let l : Lock := { sector := .desc 8, holder := .request, since := 0 }
    let v : LockWait := { sector := .desc 8, holder := .resolver }
    let w : LockWait := { sector := .desc 9, holder := .resolver }
    let s := withCtp fun p => { p with locks := [l], lockWait := [v, w] }
    s.core.ctp.lockWait = [v] ++ w :: [] ∧ s.core.ctp.locks.length < 2 ∧ (∀ x ∈ s.core.ctp.locks, x.sector ≠ w.sector) ∧
      (∀ x ∈ [v], ∃ y ∈ s.core.ctp.locks, y.sector = x.sector) ∧ w.holder = .resolver := by decide
theorem witness_WaitsEnd_full :
    let s := withCtp fun p => { p with locks := [{ sector := .desc 8, holder := .request, since := 0 },
      { sector := .desc 9, holder := .resolver, since := 0 }] }
    2 ≤ s.core.ctp.locks.length := by decide
theorem witness_WaitsEnd_drains :
    let j := { Job.start (.seal 9) .draining with drain := [7] }
    let e := txEntry .read [planSeg 0 1 .clear 1] .moving []
    (∃ i ∈ j.drain, i ∈ allCommands (moving [e] []).core) ∧ (∀ i ∈ j.drain, i ∉ allCommands base.core) ∧
      (Job.start (.delete 9) .draining).req = .delete 9 ∧ (Job.start (.format .clear) .formatDrain).stage = .formatDrain ∧
      base.core.kst.slots.length = 24 := by decide
theorem witness_WaitsEnd_detach :
    let e := txEntry .read [{ planSeg 65536 1 .cipher 1 with ctx := some 1 }] .moving []
    ctxHeld 1 (moving [e] []).core = true ∧ ctxHeld 1 base.core = false ∧
      (Job.start (.ringDetach 1) .detaching).stage = .detaching := by decide

theorem witness_MoveAdmissionMoves_clear :
    let g := planSeg 1000 300 .clear 1
    let e := txEntry .read [g] .waitingRange []
    let s := moving [e] []
    s.core.dlp.link ≠ .lost ∧ (s.core.txe.list.map TxEntry.id).Nodup ∧ admissible (.tagged 3) s.core = some e ∧
      e.asked = false ∧ e.onLink = false ∧ e.out = [] ∧ e.plan = [g] ∧ g.disp = .clear ∧ g.ctx = none ∧ 1 ≤ g.count := by
  decide +kernel
theorem witness_MoveAdmissionMoves_discard_ring :
    let g := { planSeg 65536 8192 .clear 1 with ctx := some 1 }
    let r := { planSeg 65536 200 .cipher 1 with ctx := some 1 }
    let e := txEntry .discard [g] .waitingRange []
    admissible (.tagged 3) (ringed (moving [e] [])).core = some e ∧ ringCtx 1 (ringed (moving [e] [])).core = some ring9 ∧
      (e.plan.filter fun g => decide (g.disp = .clear)).map (fun g => (g.first, g.count)) = (65536, 8192) :: [] ∧
      (∃ p ∈ partList ring9 0 r.first r.count, p.data = true) ∧ (∀ p ∈ partList ring9 60 r.first r.count, p.data = false) := by
  decide +kernel
theorem witness_MoveAdmissionMoves_blocked :
    ∀ e ∈ [{ txEntry .read [planSeg 0 1 .clear 1] .waitingRange [] with blockers := [5] }], e.blockers ≠ [] := by decide

theorem witness_PiecesEnd_read :
    let g := planSeg 1003 10 .cipher 8
    let e := txEntry .read [g] .moving [.piece 1000 16 1003 1012]
    let s := moving [e] [held 3 (.transfer (txReq .read 1000 16))]
    HoldsTransfer s.core 3 (txReq .read 1000 16) ∧ findTx 7 s.core = some e ∧ e.plan[e.pos]? = some g ∧ e.out = [] ∧
      e.onLink = false ∧ (List.replicate 16 zeroSector).length = (txReq .read 1000 16).count ∧ 0 < g.unit ∧ 16 % g.unit = 0 :=
  ⟨by simp only [HoldsTransfer]; decide +kernel, by decide +kernel⟩
theorem witness_PiecesEnd_merge :
    let g := planSeg 1003 10 .cipher 8
    let e := txEntry .write [g] .moving [.mergeRead 1000, .piece 1000 16 1003 1012]
    let s := moving [e] [held 3 (.transfer (txReq .read 1000 8))]
    HoldsTransfer s.core 3 (txReq .read 1000 8) ∧ findTx 7 s.core = some e ∧ e.kind = .write ∧
      (List.replicate 8 zeroSector).length = (txReq .read 1000 8).count :=
  ⟨by simp only [HoldsTransfer]; decide +kernel, by decide +kernel⟩
theorem witness_PiecesEnd_write :
    let g := { planSeg 65536 8 .cipher 8 with ctx := some 1, slot := some 0, ringTime := some 0, limit := some 60 }
    let e := txEntry .write [g] .moving [.piece 65536 8 65536 65543]
    let s := ringed (moving [e] [held 3 (.transfer (txReq .write 65536 8))])
    HoldsTransfer s.core 3 (txReq .write 65536 8) ∧ findTx 7 s.core = some e ∧ e.plan[e.pos + 1]? = none ∧
      (∀ i < 1, i = e.pos) ∧ g.reported = false ∧ ringCtx 1 s.core = some ring9 :=
  ⟨by simp only [HoldsTransfer]; decide +kernel, by decide +kernel⟩
theorem witness_PiecesEnd_read_abandoned :
    let e := txEntry .read [planSeg 1000 5 .clear 1] .abandoned [.piece 1000 5 1000 1004]
    let e' := txEntry .write [planSeg 1003 10 .cipher 8] .abandoned [.mergeRead 1000]
    HoldsTransfer (moving [e] [held 3 (.transfer (txReq .read 1000 5))]).core 3 (txReq .read 1000 5) ∧
      findTx 7 (moving [e] []).core = some e ∧ findTx 7 (moving [e'] []).core = some e' ∧ e.state = .abandoned ∧
      (List.replicate 5 zeroSector).length = (txReq .read 1000 5).count ∧ (∀ lba is, e.items ≠ .mergeRead lba :: is) ∧
      e'.items = .mergeRead 1000 :: [] :=
  ⟨by simp only [HoldsTransfer]; decide +kernel, by decide +kernel, by decide +kernel, rfl, by decide, by simp [txEntry], rfl⟩
theorem witness_PiecesEnd_discard_abandoned :
    let e := txEntry .discard [planSeg 0 8 .clear 1] .moving []
    let s := moving [e] [held 3 (.transfer (txReq .discard 0 1))]
    HoldsTransfer s.core 3 (txReq .discard 0 1) ∧ findTx 7 s.core = some e ∧
      (txEntry .write [] .abandoned []).state = .abandoned :=
  ⟨by simp only [HoldsTransfer]; decide +kernel, by decide +kernel⟩

/-! #### The invariants, and what is written -/

theorem commandTableOk_reset : CommandTableOk State.reset.core.rlp := by
  show ([] : List CmdTag).Nodup ∧ 0 ≤ 16 ∧ ∀ e ∈ ([] : List CmdEntry), _
  exact ⟨List.nodup_nil, by decide, by simp⟩
theorem witness_LinkTablesKept : CommandTableOk State.reset.core.rlp ∧ DriveTableOk State.reset.core.dlp ∧
    step { State.reset with pending := [.tick] } = .next (after .tick State.reset) :=
  ⟨commandTableOk_reset, ⟨by decide, List.nodup_nil, by simp [State.reset, State.powerOn, Core.powerOn], by decide,
    by simp [State.reset, State.powerOn, Core.powerOn]⟩, rfl⟩
theorem witness_SlotsKept : SlotsOk (loadingKst State.reset.core.kst) := slotsOk_loading _ rfl
theorem witness_InterlockKept : InterlockOk State.reset.core :=
  ⟨List.nodup_nil, by simp [carried, State.reset, State.powerOn, Core.powerOn], List.Pairwise.nil,
    by simp [State.reset, State.powerOn, Core.powerOn]⟩
theorem witness_LocksAndRequestKept : LockListOk State.reset.core.ctp ∧ RequestOk State.reset.core.mgw :=
  ⟨⟨by decide, List.nodup_nil⟩, by simp [RequestOk, State.reset, State.powerOn, Core.powerOn, Response.blank]⟩
theorem witness_RingsAndClockKept : SettingsOk State.reset.set ∧ RingsOk (ringed State.reset) :=
  ⟨by unfold SettingsOk; decide, by decide, rfl, by
    show ∀ x ∈ [none, some ring9, none, none], x.all (RingCtx.ok 0) = true
    decide +kernel, by simp [ringed, State.onCore, State.reset, State.powerOn, Core.powerOn]⟩
theorem witness_CacheKept : CacheOk State.reset.core.rsv ∧ FlagUpdateOk State.reset.core := by
  refine ⟨⟨rfl, ?_, by simp [State.reset, State.powerOn, Core.powerOn]⟩,
    ⟨by decide, ?_, ?_, by decide, ?_, ?_, ?_⟩⟩
  rotate_left
  · intro a ha; cases ha
  · intro a ha; cases ha
  · intro w hw; cases hw
  · intro r hr; cases hr
  · intro r i hr; cases hr
  intro i hi
  have : State.reset.core.rsv.cache.getD i CacheSet.cleared = CacheSet.cleared := by
    show (List.replicate 16 CacheSet.cleared).getD i CacheSet.cleared = _
    rw [List.getD_eq_getElem?_getD, List.getElem?_replicate]
    split <;> rfl
  rw [this]
  exact ⟨rfl, by decide, by simp [CacheSet.cleared], by simp [CacheSet.cleared]⟩
theorem witness_CatalogueSectorRoundTrip : (CatContent.header header0).fits .header = true ∧
    (CatContent.page page0).fits (.page 1092) = true ∧ (CatContent.desc desc9).fits (.desc 4095) = true ∧
    (CatContent.key { key4 with count := 4095 }).fits (.key 1023) = true := by decide +kernel
theorem witness_CipherRoundTrip : 0 < 8 ∧ 8 ∣ (List.replicate 16 zeroSector).length := by decide

end Sys2Proof.Tests
end

section
/-! What the blocks do beside the request in progress: an access that fails, a lock that is released or a load that ends
leaves the Management Window alone, takes no exchange off the link list, clears no flag and asks for no write. -/

namespace Sys2Proof.Regions
open Sys2Proof Sys2Proof.Machine

/-- From `c` to `d` the Management Window and the state of the drive link stand, the link list has at most grown, no event
flag was cleared, and no catalogue write was asked for. -/
structure LeavesRequest (c d : Core) : Prop where
  mgw : d.mgw = c.mgw
  link : d.dlp.link = c.dlp.link
  linkList : c.rlp.linkList <+: d.rlp.linkList
  flags : ∀ f : EventFlag, f.inWord c.evu.flags = true → f.inWord d.evu.flags = true
  writes : ∀ a ∈ d.ctp.queue ++ d.dlp.ctpLine, a.dir ≠ .read → a ∈ c.ctp.queue ++ c.dlp.ctpLine

theorem LeavesRequest.refl (c : Core) : LeavesRequest c c :=
  ⟨rfl, rfl, List.prefix_rfl, fun _ => id, fun _ ha _ => ha⟩

theorem LeavesRequest.trans {a b c : Core} (h : LeavesRequest a b) (k : LeavesRequest b c) : LeavesRequest a c :=
  ⟨k.mgw.trans h.mgw, k.link.trans h.link, h.linkList.trans k.linkList, fun f hf => k.flags f (h.flags f hf),
    fun x hx hd => h.writes x (k.writes x hx hd) hd⟩

/-- A change of other blocks leaves the request. -/
theorem LeavesRequest.of_same {c d : Core} (mgw : d.mgw = c.mgw) (dlp : d.dlp = c.dlp)
    (linkList : d.rlp.linkList = c.rlp.linkList) (flags : d.evu.flags = c.evu.flags) (queue : d.ctp.queue = c.ctp.queue) :
    LeavesRequest c d :=
  ⟨mgw, by rw [dlp], by rw [linkList], fun f hf => by rwa [flags], fun a ha _ => by rwa [queue, dlp] at ha⟩

/-! ### Events -/

theorem inWord_or (f : EventFlag) (v w : BitVec 12) : f.inWord (v ||| w) = (f.inWord v || f.inWord w) :=
  BitVec.getLsbD_or

theorem inWord_word_self (f : EventFlag) : f.inWord f.word = true := by cases f <;> rfl

/-- A raise leaves set what was set. -/
theorem inWord_raise_of_inWord {f : EventFlag} {e : Evu} (g : Settings) (k : EventFlag) (h : f.inWord e.flags = true) :
    f.inWord (e.raise g k).flags = true := by
  unfold Evu.raise
  split
  · exact h
  · simp only [inWord_or, h, Bool.true_or]

/-- A raise sets its flag. -/
theorem inWord_raise_self (g : Settings) (f : EventFlag) (e : Evu) : f.inWord (e.raise g f).flags = true := by
  unfold Evu.raise
  split
  · assumption
  · simp only [inWord_or, inWord_word_self, Bool.or_true]

theorem raiseFlag_leaves (g : Settings) (f : EventFlag) (c : Core) : LeavesRequest c (raiseFlag g f c) :=
  ⟨rfl, rfl, List.prefix_rfl, fun _ h => inWord_raise_of_inWord g f h, fun _ ha _ => ha⟩

theorem raiseWhen_false (g : Settings) (f : EventFlag) (c : Core) : raiseWhen g false f c = c := rfl

theorem raiseWhen_leaves (g : Settings) (b : Bool) (f : EventFlag) (c : Core) : LeavesRequest c (raiseWhen g b f c) := by
  cases b
  · exact .refl c
  · exact raiseFlag_leaves g f c

/-! ### The resolver and the key slots -/

theorem takeRead_leaves (x : CatSector) (o : AccessOwner) (c : Core) : LeavesRequest c (takeRead x o c) := by
  refine ⟨rfl, rfl, List.prefix_rfl, fun _ => id, fun a ha hd => ?_⟩
  simp only [takeRead, takeAccess_eq, List.append_assoc, List.mem_append, List.mem_singleton] at ha ⊢
  rcases ha with hq | rfl | hl
  · exact .inl hq
  · exact absurd rfl hd
  · exact .inr hl

theorem giveRefusal_leaves (tag : CmdTag) (st : LinkStatus) (lba : Nat) (c : Core) :
    LeavesRequest c (giveRefusal tag st lba c) :=
  ⟨rfl, rfl, List.prefix_append _ _, fun _ => id, fun _ ha _ => ha⟩

theorem refusalEvent_leaves (g : Settings) (st : LinkStatus) (c : Core) : LeavesRequest c (refusalEvent g st c) := by
  unfold refusalEvent
  split
  · exact raiseFlag_leaves ..
  · exact raiseFlag_leaves ..
  · exact raiseFlag_leaves ..
  · exact raiseFlag_leaves ..
  · exact .refl c

theorem refuseCmd_leaves (g : Settings) (st : LinkStatus) (lba : Nat) (c : Core) :
    LeavesRequest c (refuseCmd g st lba c) := by
  unfold refuseCmd
  split
  · exact .refl c
  · rename_i res _
    obtain ⟨k, hk⟩ := lowerGrants_eq res.segs (refusalEvent g st c)
    rw [hk]
    refine (refusalEvent_leaves g st c).trans (.trans ?_ (giveRefusal_leaves ..))
    exact .of_same rfl rfl rfl rfl rfl

/-- Loading the cache entries of a plan changes the resolver alone. -/
theorem loadSegs_eq (segs : List Seg) (c : Core) : ∃ r, segs.foldl loadSeg c = { c with rsv := r } := by
  induction segs generalizing c with
  | nil => exact ⟨c.rsv, rfl⟩
  | cons s segs ih =>
    rw [List.foldl_cons]
    obtain ⟨r, hr⟩ := ih (loadSeg c s)
    have hs : ∃ v, loadSeg c s = { c with rsv := v } := by
      unfold loadSeg
      split
      · split
        · exact ⟨_, rfl⟩
        · exact ⟨_, rfl⟩
      · exact ⟨_, rfl⟩
    obtain ⟨v, hv⟩ := hs
    exact ⟨r, by rw [hr, hv]⟩

theorem handOff_leaves (c : Core) : LeavesRequest c (handOff c) := by
  unfold handOff
  split
  · exact .refl c
  · rename_i res _
    obtain ⟨r, hr⟩ := loadSegs_eq res.segs c
    rw [hr]
    exact .of_same rfl rfl rfl rfl rfl

theorem setPhase_leaves (p : RsvPhase) (c : Core) : LeavesRequest c (setPhase p c) := .of_same rfl rfl rfl rfl rfl

theorem onSeg_leaves (i : Nat) (f : Seg → Seg) (c : Core) : LeavesRequest c (onSeg i f c) := .of_same rfl rfl rfl rfl rfl

theorem onKst_leaves (f : Kst → Kst) (c : Core) : LeavesRequest c (c.onKst f) := .of_same rfl rfl rfl rfl rfl

theorem missSlot_leaves (i record : Nat) (c : Core) : LeavesRequest c (missSlot i record c) := by
  unfold missSlot
  split
  · exact ((onKst_leaves ..).trans (setPhase_leaves ..)).trans (takeRead_leaves ..)
  · exact setPhase_leaves ..

theorem grantSlots_leaves (g : Settings) (fuel i : Nat) (c : Core) : LeavesRequest c (grantSlots g fuel i c) := by
  induction fuel generalizing i c with
  | zero => exact .refl c
  | succ fuel ih =>
    unfold grantSlots
    split
    · exact .refl c
    split
    · exact handOff_leaves c
    split
    · split
      · exact missSlot_leaves ..
      split
      · split
        · exact ((onKst_leaves ..).trans (onSeg_leaves ..)).trans (ih ..)
        · exact refuseCmd_leaves ..
      · exact setPhase_leaves ..
    · exact ih _ _

theorem slotsFrom_leaves (g : Settings) (i : Nat) (c : Core) : LeavesRequest c (slotsFrom g i c) :=
  grantSlots_leaves ..

/-! ### Key loads and locks -/

theorem failLoad_leaves (g : Settings) (j : Nat) (st : LinkStatus) (c : Core) : LeavesRequest c (failLoad g j st c) := by
  refine (onKst_leaves (fun k => k.empty j) c).trans ?_
  unfold failLoad
  dsimp only
  split
  · exact refuseCmd_leaves ..
  · exact slotsFrom_leaves ..
  · exact .refl _

theorem answerAgain_leaves (g : Settings) (j : Nat) (c : Core) : LeavesRequest c (answerAgain g j c) := by
  unfold answerAgain
  split
  · exact slotsFrom_leaves ..
  · exact .refl c

theorem loadDone_leaves (g : Settings) (j : Nat) (e : ReadEnd) (c : Core) : LeavesRequest c (loadDone g j e c) := by
  unfold loadDone
  split
  · split
    · split
      · exact (onKst_leaves ..).trans (answerAgain_leaves ..)
      · exact failLoad_leaves ..
    all_goals exact failLoad_leaves ..
  · exact .refl c

theorem keyReadDone_leaves (g : Settings) (j seq : Nat) (e : ReadEnd) (c : Core) :
    LeavesRequest c (keyReadDone g j seq e c) := by
  unfold keyReadDone
  split
  · exact .refl c
  · dsimp only
    split
    · exact onKst_leaves ..
    · exact onKst_leaves ..
    · exact loadDone_leaves ..

theorem dropLock_leaves (x : CatSector) (c : Core) : LeavesRequest c (dropLock x c) := .of_same rfl rfl rfl rfl rfl

theorem releaseLock_leaves (g : Settings) (x : CatSector) (c : Core) : LeavesRequest c (releaseLock g x c) := by
  refine (dropLock_leaves x c).trans ?_
  unfold releaseLock
  dsimp only
  split
  · split
    · split
      · exact (onKst_leaves ..).trans (loadDone_leaves ..)
      · exact .refl _
    · exact .refl _
  · exact .refl _

theorem releaseHeld_leaves (g : Settings) (c : Core) : LeavesRequest c (releaseHeld g c) := by
  unfold releaseHeld
  split
  · exact releaseLock_leaves ..
  · exact .refl c

/-! ### Accesses that fail -/

theorem noticeKey_leaves (k : Nat) (live : Bool) (c : Core) : LeavesRequest c (noticeKey k live c) := by
  unfold noticeKey
  split
  · exact .refl c
  split
  · split
    · exact .refl c
    · exact onKst_leaves ..
  split
  · exact onKst_leaves ..
  · exact .refl c

theorem deliver_leaves (n : Notice) (c : Core) : LeavesRequest c (deliver n c) := by
  cases n with
  | none => exact .refl c
  | page p changed => exact .of_same rfl rfl rfl rfl rfl
  | edit r => exact .of_same rfl rfl rfl rfl rfl
  | flags r played written d => exact .of_same rfl rfl rfl rfl rfl
  | key k live => exact noticeKey_leaves ..

/-- A failed write's notice and CATALOGUE-DAMAGE. -/
theorem damage_leaves (g : Settings) (x : CatSector) (c : Core) :
    LeavesRequest c (raiseFlag g .catalogueDamage (deliver (failedNotice x) c)) :=
  (deliver_leaves ..).trans (raiseFlag_leaves ..)

theorem endStartUp_leaves (g : Settings) (r : StartUpResult) (c : Core) : LeavesRequest c (endStartUp g r c) :=
  ⟨rfl, rfl, List.prefix_rfl, fun _ h => inWord_raise_of_inWord g .startUp h, fun _ ha _ => ha⟩

/-- A read that fails with no request in progress. -/
theorem accessRead_timeout_leaves (g : Settings) (a : Access) (c : Core) (hj : c.mgw.job = none) :
    LeavesRequest c (accessRead g a .timeout c) := by
  simp only [accessRead, reduceCtorEq, decide_false, Bool.false_and, raiseWhen_false]
  split
  · exact endStartUp_leaves ..
  · unfold walkReadDone
    split
    · exact refuseCmd_leaves ..
    · exact .refl c
  · unfold flagReadDone
    split
    · exact refuseCmd_leaves ..
    · exact .refl c
  · exact keyReadDone_leaves ..
  · simp only [jobRead, hj]
    exact .refl c
  · exact dropLock_leaves ..
  all_goals exact .refl c

/-- A write that fails with no request in progress. -/
theorem accessWriteFailed_leaves (g : Settings) (a : Access) (c : Core) (hj : c.mgw.job = none) :
    LeavesRequest c (accessWriteFailed g a c) := by
  unfold accessWriteFailed
  split
  · have h := (damage_leaves g a.sector c).trans (releaseLock_leaves g a.sector _)
    simp only [jobWriteFailed, h.mgw, hj]
    exact h
  · refine ((damage_leaves g a.sector c).trans (dropLock_leaves a.sector _)).trans ?_
    dsimp only
    split
    · exact refuseCmd_leaves ..
    · exact .refl _
  · exact (damage_leaves ..).trans (dropLock_leaves ..)
  · have h := raiseFlag_leaves g .catalogueDamage c
    simp only [formatWriteFailed, h.mgw, hj]
    exact h
  · exact .refl c

theorem accessFailed_timeout_leaves (g : Settings) (a : Access) (c : Core) (hj : c.mgw.job = none) :
    LeavesRequest c (accessFailed g a .timeout c) := by
  unfold accessFailed
  split
  · exact accessRead_timeout_leaves g a c hj
  · exact accessWriteFailed_leaves g a c hj

/-! ### The pump -/

/-- From `c` to `d` catalogue accesses may have moved on from the queue to the CTP line, and nothing else has changed. -/
structure MovesOn (c d : Core) : Prop where
  evu : d.evu = c.evu
  rlp : d.rlp = c.rlp
  rsv : d.rsv = c.rsv
  kst : d.kst = c.kst
  rings : d.rings = c.rings
  txe : d.txe = c.txe
  mgw : d.mgw = c.mgw
  locks : d.ctp.locks = c.ctp.locks
  accesses : ∀ a, a ∈ d.ctp.queue ++ d.dlp.ctpLine ↔ a ∈ c.ctp.queue ++ c.dlp.ctpLine

theorem pump_movesOn (g : Settings) (c : Core) (h : c.dlp.link ≠ .lost) : MovesOn c (pump g c) := by
  obtain ⟨q, l, hp, hm⟩ := pump_of_not_lost g c h
  rw [hp]
  exact ⟨rfl, rfl, rfl, rfl, rfl, rfl, rfl, rfl, hm⟩

/-- The access that goes ahead is one of the queue. -/
theorem nextAhead_mem {c : Core} {a : Access} (h : nextAhead c = some a) : a ∈ c.ctp.queue := by
  unfold nextAhead at h
  split at h
  · exact List.mem_of_find?_eq_some h
  · cases h

theorem goAhead_leaves (g : Settings) (a : Access) (c : Core) (ha : a ∈ c.ctp.queue) (hj : c.mgw.job = none) :
    LeavesRequest c (goAhead g a c) := by
  by_cases hl : c.dlp.link = .lost
  · have hq : LeavesRequest c (c.onCtp fun t => { t with queue := t.queue.erase a }) :=
      ⟨rfl, rfl, List.prefix_rfl, fun _ => id, fun b hb _ => by
        simp only [Core.onCtp_ctp, Core.onCtp_dlp, List.mem_append] at hb ⊢
        exact hb.imp_left List.mem_of_mem_erase⟩
    have he : goAhead g a c = accessFailed g a .timeout (c.onCtp fun t => { t with queue := t.queue.erase a }) := by
      unfold goAhead; exact if_pos hl
    rw [he]
    exact hq.trans (accessFailed_timeout_leaves g a _ hj)
  · rw [goAhead_of_not_lost g a c hl]
    refine ⟨rfl, rfl, List.prefix_rfl, fun _ => id, fun b hb _ => ?_⟩
    simp only [List.mem_append, List.mem_singleton] at hb ⊢
    rcases hb with hq | hd | rfl
    · exact .inl (List.mem_of_mem_erase hq)
    · exact .inr hd
    · exact .inl ha

/-- With no request in progress the pump leaves the Management Window as it is, also on a link that is LOST. -/
theorem pump_leaves (g : Settings) (c : Core) (hj : c.mgw.job = none) : LeavesRequest c (pump g c) := by
  unfold pump
  generalize 2 * c.ctp.queue.length + 8 = n
  induction n generalizing c with
  | zero => exact .refl c
  | succ n ih =>
    unfold pumpSome
    split
    · rename_i a hn
      have h := goAhead_leaves g a c (nextAhead_mem hn) hj
      exact h.trans (ih _ (by rw [h.mgw]; exact hj))
    · exact .refl c

end Sys2Proof.Regions
end

section
/-! The end of a catalogue read of the request in progress: what each stage does with its content, and how the step ends
where the request ends, or asks for a write. -/

namespace Sys2Proof.Regions
open Sys2Proof Sys2Proof.Machine

/-! ### The step -/

/-- The step hands the verified content to the request, once the read has left the drive request table, and pumps. -/
theorem exec_readComplete {s : State} {tag : Fin 16} {data : Sector} {j : Job} {x : CatSector} {y : CatContent}
    (h : JobReads s tag.val data j x y) :
    exec (.catalogueReadComplete tag data) s =
      .next { s with core := pump s.set (jobRead s.set (.content y) (dropReq tag.val s.core)) } := by
  obtain ⟨a, ha, rfl, hd, ho⟩ := h.holds
  have hv : goodRead a data (dropReq tag.val s.core) = .content y := by
    have : verifySector (dropReq tag.val s.core).kst.keys (dropReq tag.val s.core).ctp a.sector data = some y := h.verifies
    rw [goodRead, this]
  have hc : catalogueRead s.set tag.val data s.core =
      pump s.set (jobRead s.set (.content y) (dropReq tag.val s.core)) := by
    unfold HoldsAccess at ha
    simp only [catalogueRead, ha, hd, hv, accessRead, ho, reduceCtorEq, decide_false, Bool.false_and, raiseWhen_false]
  rw [← hc]
  rfl

/-- The same on a link that is not LOST, where the pump only moves accesses on. -/
theorem exec_readComplete_movesOn {s : State} {tag : Fin 16} {data : Sector} {j : Job} {x : CatSector} {y : CatContent}
    (h : JobReads s tag.val data j x y) {c : Core}
    (he : jobRead s.set (.content y) (dropReq tag.val s.core) = c) (hl : c.dlp.link = s.core.dlp.link) :
    ∃ d, exec (.catalogueReadComplete tag data) s = .next { s with core := d } ∧ MovesOn c d :=
  ⟨_, exec_readComplete h, he ▸ pump_movesOn _ _ (he ▸ hl ▸ h.up)⟩

/-- A request that the read ends: its status is shown, and the flags raised on the way stay. -/
theorem read_ends {s : State} {tag : Fin 16} {data : Sector} {j : Job} {x : CatSector} {y : CatContent}
    (h : JobReads s tag.val data j x y) {st : RespStatus} {d : Core} (hl : d.dlp.link = s.core.dlp.link)
    (hr : d.mgw.response = s.core.mgw.response)
    (he : jobRead s.set (.content y) (dropReq tag.val s.core) = endRequest s.set st d) :
    ∃ t, exec (.catalogueReadComplete tag data) s = .next t ∧ Ends s t st ∧
      ∀ f : EventFlag, f.inWord d.evu.flags = true → f.inWord t.core.evu.flags = true := by
  obtain ⟨e, ht, hp⟩ := exec_readComplete_movesOn h he hl
  have hm : e.mgw = { d.mgw with job := none, response := { s.core.mgw.response with status := st } } := by
    rw [hp.mgw, endRequest_eq, hr]
  have hv : e.evu = d.evu.raise s.set .requestDone := hp.evu
  refine ⟨_, ht, ⟨congrArg Mgw.job hm, congrArg Mgw.response hm, ?_, rfl⟩, fun f hf => ?_⟩
  · simpa only [hv] using inWord_raise_self ..
  · simpa only [hv] using inWord_raise_of_inWord _ _ hf

/-- A request that the read refuses. -/
theorem read_refuses {s : State} {tag : Fin 16} {data : Sector} {j : Job} {x : CatSector} {y : CatContent}
    (h : JobReads s tag.val data j x y) {why : Reason}
    (he : ∀ {g c}, c.mgw.job = some j → jobRead g (.content y) c = refuseJob g why c) :
    ∃ t, exec (.catalogueReadComplete tag data) s = .next t ∧ Ends s t (.refused why) := by
  have hr := releaseHeld_leaves s.set (dropReq tag.val s.core)
  obtain ⟨t, ht, hends, -⟩ := read_ends h hr.link (congrArg Mgw.response hr.mgw) (he h.job)
  exact ⟨t, ht, hends⟩

/-- A request that the read refuses with CATALOGUE-DAMAGE. -/
theorem read_refuses_damage {s : State} {tag : Fin 16} {data : Sector} {j : Job} {x : CatSector} {y : CatContent}
    (h : JobReads s tag.val data j x y) {why : Reason}
    (he : ∀ {g c}, c.mgw.job = some j → jobRead g (.content y) c = refuseJob g why (raiseFlag g .catalogueDamage c)) :
    ∃ t, exec (.catalogueReadComplete tag data) s = .next t ∧ Ends s t (.refused why) ∧
      EventFlag.catalogueDamage.inWord t.core.evu.flags = true := by
  have hr := releaseHeld_leaves s.set (raiseFlag s.set .catalogueDamage (dropReq tag.val s.core))
  obtain ⟨t, ht, hends, hf⟩ := read_ends h hr.link (congrArg Mgw.response hr.mgw) (he h.job)
  exact ⟨t, ht, hends, hf _ (hr.flags _ (inWord_raise_self ..))⟩

/-- A request that asks for a write: the access waits for the drive, and nothing else but the job is changed. -/
theorem read_writes {s : State} {tag : Fin 16} {data : Sector} {j j' : Job} {x z : CatSector} {y content : CatContent}
    {n : Notice} (h : JobReads s tag.val data j x y)
    (he : ∀ {g c}, c.mgw.job = some j → jobRead g (.content y) c = takeWrite z content n .request (setJob j' c)) :
    ∃ t, exec (.catalogueReadComplete tag data) s = .next t ∧ Writes s t z content n ∧
      t.core.mgw = { s.core.mgw with job := some j' } := by
  obtain ⟨e, ht, hp⟩ := exec_readComplete_movesOn h (he h.job) rfl
  have hm : e.mgw = { s.core.mgw with job := some j' } := hp.mgw
  refine ⟨_, ht, ⟨?_, hp.locks, by rw [hm], rfl, hp.evu, hp.rlp, hp.kst, hp.rings, hp.txe, hp.rsv⟩, hm⟩
  refine ⟨⟨s.core.ctp.seq, z, .write (writtenSector s.core.kst.keys s.core.ctp z content) n, .request⟩,
    (hp.accesses _).mpr (List.mem_append_left _ ?_), rfl, rfl, rfl⟩
  exact List.mem_append_right _ (List.mem_singleton_self _)

/-- A write that leaves the job as it is leaves the Management Window as it is. -/
theorem read_writes_same {s : State} {tag : Fin 16} {data : Sector} {j : Job} {x z : CatSector} {y content : CatContent}
    {n : Notice} (h : JobReads s tag.val data j x y)
    (he : ∀ {g c}, c.mgw.job = some j → jobRead g (.content y) c = takeWrite z content n .request (setJob j c)) :
    ∃ t, exec (.catalogueReadComplete tag data) s = .next t ∧ Writes s t z content n ∧ t.core.mgw = s.core.mgw := by
  obtain ⟨t, ht, hw, hm⟩ := read_writes h he
  exact ⟨t, ht, hw, by rw [hm, ← h.job]⟩

/-! ### The stages -/

section Stages
variable {g : Settings} {c : Core} {j : Job}

theorem jobRead_checkDesc {d : Desc} (hj : c.mgw.job = some j) (hs : j.stage = .checkDesc) :
    jobRead g (.content (.desc d)) c = descChecked g j d c := by simp only [jobRead, hj, hs]

theorem jobRead_checkRecount {d : Desc} (hj : c.mgw.job = some j) (hs : j.stage = .checkRecount) :
    jobRead g (.content (.desc d)) c = recountStep g j (some d) c := by simp only [jobRead, hj, hs]

theorem jobRead_checkSource {d : Desc} {p : CreateParams} (hj : c.mgw.job = some j) (hs : j.stage = .checkSource)
    (hr : j.req = .create p) :
    jobRead g (.content (.desc d)) c = require g (d.inUse && decide (d.kind = .recording) && decide (d.unit = p.unit))
      .badState (toCheck .checkSourceKey 0 { j with descB := some d }) c := by simp only [jobRead, hj, hs, hr]

theorem jobRead_checkSourceKey {k : KeyRec} (hj : c.mgw.job = some j) (hs : j.stage = .checkSourceKey) :
    jobRead g (.content (.key k)) c = require g (decide (k.count ≠ 4095)) .conflict (afterSource g j) c := by
  simp only [jobRead, hj, hs]

theorem jobRead_checkPages {es : List MapEntry} (hj : c.mgw.job = some j) (hs : j.stage = .checkPages) :
    jobRead g (.content (.page es)) c = pageChecked g j es c := by simp only [jobRead, hj, hs]

theorem jobRead_checkNames {d : Desc} (hj : c.mgw.job = some j) (hs : j.stage = .checkNames) :
    jobRead g (.content (.desc d)) c = nameChecked g j d c := by simp only [jobRead, hj, hs]

theorem jobRead_checkTarget {d : Desc} (hj : c.mgw.job = some j) (hs : j.stage = .checkTarget) :
    jobRead g (.content (.desc d)) c = targetChecked g j d c := by simp only [jobRead, hj, hs]

theorem jobRead_checkAll {d : Desc} {a b : Nat} (hj : c.mgw.job = some j) (hs : j.stage = .checkAll)
    (hr : j.req = .join a b) : jobRead g (.content (.desc d)) c = joinStep g j a b d c := by
  simp only [jobRead, hj, hs, hr]

theorem jobRead_writeDesc {d d' : Desc} (hj : c.mgw.job = some j) (hs : j.stage = .writeDesc) (hn : j.newDesc d = some d') :
    jobRead g (.content (.desc d)) c =
      takeWrite (.desc j.req.region) (.desc d') (.edit j.req.region) .request (setJob j c) := by
  simp only [jobRead, hj, hs, lockedContent, hn]

theorem jobRead_writeLast {d : Desc} (hj : c.mgw.job = some j) (hs : j.stage = .writeLast) :
    jobRead g (.content (.desc d)) c =
      takeWrite (.desc j.req.region) (.desc Desc.blank) (.edit j.req.region) .request (setJob j c) := by
  simp only [jobRead, hj, hs, lockedContent]

theorem jobRead_writeHeader {h : Header} {p : Policy} (hj : c.mgw.job = some j) (hs : j.stage = .writeHeader)
    (hr : j.req = .setPolicy p) : jobRead g (.content (.header h)) c =
      takeWrite .header (.header { h with policy := p }) .none .request (setJob j c) := by
  simp only [jobRead, hj, hs, lockedContent, hr]

/-- The key record under the lock is written. -/
theorem jobRead_writeKey {k k' : KeyRec} (hj : c.mgw.job = some j) (hs : j.stage = .writeKey) (hk : j.newKey k = some k') :
    jobRead g (.content (.key k)) c = takeWrite (.key j.keyRecord) (.key k') (.key j.keyRecord k'.live) .request
      (setJob { j with keyCount := k'.count } c) := by
  simp only [jobRead, hj, hs, lockedContent, hk]

/-- The key record under the lock is released unwritten. -/
theorem jobRead_writeKey_none {k : KeyRec} (hj : c.mgw.job = some j) (hs : j.stage = .writeKey) (hk : j.newKey k = none) :
    jobRead g (.content (.key k)) c =
      afterKey g { j with keyCount := k.count } false (releaseHeld g (setJob { j with keyCount := k.count } c)) := by
  simp only [jobRead, hj, hs, lockedContent, hk]

/-- The AUs of a page whose entries the request changes. -/
def changedAus (j : Job) (es : List MapEntry) : List Nat :=
  (es.zipIdx (120 * j.index)).filterMap fun e => if j.newEntry e.2 e.1 = e.1 then none else some e.2

theorem jobRead_writePages {es : List MapEntry} (hj : c.mgw.job = some j) (hs : j.stage = .writePages)
    (hne : changedAus j es ≠ []) : jobRead g (.content (.page es)) c =
      takeWrite (.page j.index) (.page ((es.zipIdx (120 * j.index)).map fun e => j.newEntry e.2 e.1))
        (.page j.index (changedAus j es)) .request (setJob { j with changed := j.changed + (changedAus j es).length } c) := by
  have he : (changedAus j es).isEmpty = false := by simpa using hne
  unfold changedAus at he
  simp only [jobRead, hj, hs, lockedContent, he, Bool.false_eq_true, if_false, changedAus]

theorem jobRead_writePages_same {es : List MapEntry} (hj : c.mgw.job = some j) (hs : j.stage = .writePages)
    (hn : changedAus j es = []) : jobRead g (.content (.page es)) c = nextPage g j (releaseHeld g c) := by
  unfold changedAus at hn
  simp only [jobRead, hj, hs, lockedContent, hn, List.isEmpty_nil, if_true]

end Stages

/-! ### Checks -/

theorem require_refuses {g : Settings} {ok : Bool} {r : Reason} {go : Core → Core} {c : Core} (h : ¬ok = true) :
    require g ok r go c = refuseJob g r c := if_neg h

end Sys2Proof.Regions
end

section
/-! Requests taken from the Management Window that begin with a check read: how a request write is taken (R190), the
parameters of each (R206), and the two ways it goes on by the catalogue state (R32). -/

namespace Sys2Proof.Regions
open Sys2Proof Sys2Proof.Machine

/-! ### Taking a request write -/

/-- The state in which a request does its own work: its write has left the inbox, and the response record is its own. -/
def taken (code : Nat) (w : WinCmd) (s : State) : State := s.onCore fun c => replaceRecord code w.record (popWindow c)

/-- The end of a request write: its completion joins the link list, and the accesses that can go ahead do. -/
def answered (w : WinCmd) (s : State) : State := s.onCore fun c => pump s.set (giveStatus w.tag .good c)

section Requests
variable {s : State} {code : Nat} {w : WinCmd} {run : WinCmd → Nat → State → State}

/-- A request write that meets no request in progress and fits its sectors does its work between the two. -/
theorem takeRequest_eq (hf : Fresh s.core code w) :
    takeRequest code run s = answered w (run w w.record (taken code w s)) := by
  have hb : busy s.core = false := decide_eq_false hf.idle
  have hn : ¬512 * w.count < 8 + field w.record 4 2 := by have := hf.fits; unfold WinCmd.paramLength at this; omega
  simp only [takeRequest, hf.head, answerRequest, hb, Bool.false_eq_true, if_false, if_true, if_neg hn]
  rfl

/-- Where a request write can be taken no request is in progress. -/
theorem fresh_job (hf : Fresh s.core code w) : s.core.mgw.job = none := by
  have h : ¬s.core.mgw.job.isSome = true := fun h => hf.idle (hf.law.mp h)
  simpa using h

/-- The blocks when a request does its work, CLAMPED raised where a value was clamped: `v` is the Event Unit. -/
def takenCore (code : Nat) (w : WinCmd) (v : Evu) (c : Core) : Core :=
  { c with
    evu := v
    mgw := { c.mgw with inbox := c.mgw.inbox.tail, response := { code := code, serial := field w.record 2 2, status := .none } } }

theorem noteClamp_taken (b : Bool) : noteClamp b (taken code w s) =
    { s with core := takenCore code w (raiseWhen s.set b .clamped s.core).evu s.core } := by cases b <;> rfl

/-- The request is refused at once, on whatever link. -/
theorem takeRequest_refused (hf : Fresh s.core code w) {b : Bool} {why : Reason}
    (hr : run w w.record (taken code w s) = refuse why (noteClamp b (taken code w s))) :
    Shows s (takeRequest code run s) w code (.refused why) ∧ (takeRequest code run s).core.mgw.job = none ∧
      (takeRequest code run s).set = s.set := by
  rw [takeRequest_eq hf, hr, noteClamp_taken]
  generalize (raiseWhen s.set b .clamped s.core).evu = v
  have hp := pump_leaves s.set (giveStatus w.tag .good (setResponse (.refused why) (takenCore code w v s.core))) (fresh_job hf)
  exact ⟨⟨congrArg Mgw.response hp.mgw, congrArg Mgw.inbox hp.mgw, hp.linkList, rfl⟩,
    (congrArg Mgw.job hp.mgw).trans (fresh_job hf), rfl⟩

/-- The request becomes IN-PROGRESS, and the CTP is asked for the sector of its first check. -/
theorem takeRequest_begins (hf : Fresh s.core code w) (hl : s.core.dlp.link ≠ .lost) {b : Bool} {st : Stage} {i : Nat}
    {req : Request} (hr : run w w.record (taken code w s) = beginCheck st i req (noteClamp b (taken code w s))) :
    Begins s (takeRequest code run s) w code req st ({ Job.start req st with index := i } : Job).sector ∧
      (takeRequest code run s).core.evu = (raiseWhen s.set b .clamped s.core).evu ∧
      (takeRequest code run s).core.kst = s.core.kst ∧ (takeRequest code run s).core.rings = s.core.rings ∧
      (takeRequest code run s).core.txe = s.core.txe ∧ (takeRequest code run s).core.rsv = s.core.rsv := by
  rw [takeRequest_eq hf, hr, noteClamp_taken]
  generalize (raiseWhen s.set b .clamped s.core).evu = v
  have hp := pump_movesOn s.set (giveStatus w.tag .good
    (toCheck st i (Job.start req st) (setResponse .inProgress (takenCore code w v s.core)))) hl
  refine ⟨⟨⟨congrArg Mgw.response hp.mgw, congrArg Mgw.inbox hp.mgw, ?_, rfl⟩, ⟨_, congrArg Mgw.job hp.mgw, rfl, rfl⟩, ?_, rfl⟩,
    hp.evu, hp.kst, hp.rings, hp.txe, hp.rsv⟩
  · exact (congrArg Rlp.linkList hp.rlp) ▸ List.prefix_rfl
  · refine ⟨⟨s.core.ctp.seq, _, .read, .request⟩, (hp.accesses _).mpr (List.mem_append_left _ ?_), rfl, rfl, rfl⟩
    exact List.mem_append_right _ (List.mem_singleton_self _)

end Requests

/-! ### Requests whose first step is a check read -/

/-- The command is a request that is refused NOT-READY outside READY; in READY, on a link that is not LOST, it becomes
IN-PROGRESS at a stage, with the CTP asked for a sector. -/
def ChecksFirst (c : Instr) (s : State) (w : WinCmd) (code : Nat) (req : Request) (st : Stage) (x : CatSector) : Prop :=
  (s.core.ctp.state ≠ .ready →
    ∃ t, exec c s = .next t ∧ Shows s t w code (.refused .notReady) ∧ t.core.mgw.job = none ∧ t.set = s.set) ∧
  (s.core.ctp.state = .ready → s.core.dlp.link ≠ .lost →
    ∃ t, exec c s = .next t ∧ Begins s t w code req st x ∧ t.core.evu = s.core.evu ∧
      t.core.kst = s.core.kst ∧ t.core.rings = s.core.rings ∧ t.core.txe = s.core.txe ∧ t.core.rsv = s.core.rsv)

theorem whenReady_ready {run : State → State} {s : State} (h : s.core.ctp.state = .ready) : whenReady run s = run s :=
  if_pos h

theorem whenReady_refuse {run : State → State} {s : State} (h : s.core.ctp.state ≠ .ready) :
    whenReady run s = refuse .notReady s := if_neg h

/-- The work of the request write at the head is a check read once the catalogue is READY. -/
theorem checksFirst_of_run {c : Instr} {s : State} {w : WinCmd} {code : Nat} {req : Request} {st : Stage} {i : Nat}
    {run : WinCmd → Nat → State → State} {f : State → State} (hc : exec c s = .next (takeRequest code run s))
    (hf : Fresh s.core code w) (hr : run w w.record (taken code w s) = whenReady f (taken code w s))
    (hb : f (taken code w s) = beginCheck st i req (taken code w s)) :
    ChecksFirst c s w code req st ({ Job.start req st with index := i } : Job).sector := by
  constructor
  · intro hn
    exact ⟨_, hc, takeRequest_refused (b := false) hf (hr.trans (whenReady_refuse hn))⟩
  · intro hy hl
    exact ⟨_, hc, takeRequest_begins (b := false) hf hl ((hr.trans (whenReady_ready (s := taken code w s) hy)).trans hb)⟩

/-! ### Parameters -/

section Parameters
variable {v : Nat} {p : Placement}

theorem regionParam_eq (h1 : 1 ≤ field v 8 2) (h2 : field v 8 2 ≤ 4095) : regionParam v = some (field v 8 2) := by
  have : regionOk (param v 0 2) = true := by simpa [regionOk, param, Config.maxRegion] using ⟨h1, h2⟩
  rw [regionParam, if_pos this]; rfl

theorem flagOf_eq {n : Nat} (h : n ≤ 1) : flagOf n = some (decide (n = 1)) := by
  obtain rfl | rfl : n = 0 ∨ n = 1 := by omega
  · rfl
  · rfl

theorem auRangeOk_eq {limit a n : Nat} (h1 : 1 ≤ n) (h2 : n ≤ limit) (h3 : a + n - 1 < p.auCount) :
    auRangeOk p limit a n = true := by simp [auRangeOk, h1, h2, h3]

theorem assignParam_eq (hr : regionParam v = some (field v 8 2)) (hf : field v 10 1 ≤ 1)
    (hn : auRangeOk p 4096 (field v 12 4) (field v 16 2) = true) :
    assignParam p v = some (.assign (field v 8 2) (decide (field v 10 1 = 1)) (field v 12 4) (field v 16 2)) := by
  have hf' : flagOf (param v 2 1) = some (decide (field v 10 1 = 1)) := flagOf_eq hf
  simp only [assignParam, hr, hf']
  exact if_pos hn

theorem setLockedParam_eq (hr : regionParam v = some (field v 8 2)) (hf : field v 10 1 ≤ 1) :
    setLockedParam v = some (.setLocked (field v 8 2) (decide (field v 10 1 = 1))) := by
  have hf' : flagOf (param v 2 1) = some (decide (field v 10 1 = 1)) := flagOf_eq hf
  simp only [setLockedParam, hr, hf']

theorem setFlagsParam_eq (hr : regionParam v = some (field v 8 2)) (hf : field v 10 1 ≤ 1) (hk : field v 11 1 ≤ 1) :
    setFlagsParam v = some (.setFlags (field v 8 2) (decide (field v 10 1 = 1)) (decide (field v 11 1 = 1))) := by
  have hf' : flagOf (param v 2 1) = some (decide (field v 10 1 = 1)) := flagOf_eq hf
  have hk' : flagOf (param v 3 1) = some (decide (field v 11 1 = 1)) := flagOf_eq hk
  simp only [setFlagsParam, hr, hf', hk']

theorem writeAreaParam_eq (hr : regionParam v = some (field v 8 2)) (hn : field v 10 2 ≤ 256) :
    writeAreaParam v = some (.writeArea (field v 8 2) (leBytes (field v 10 2) (field v 12 (field v 10 2)))) := by
  simp only [writeAreaParam, hr]
  exact if_pos hn

theorem auRangeParam_eq {limit : Nat} (hn : auRangeOk p limit (field v 8 4) (field v 12 2) = true) :
    auRangeParam p limit v = some (field v 8 4, field v 12 2) := if_pos hn

theorem setAuProtectParam_eq (hn : auRangeOk p 4096 (field v 8 4) (field v 12 2) = true) (hf : field v 14 1 ≤ 1) :
    setAuProtectParam p v = some (.setAuProtect (field v 8 4) (field v 12 2) (decide (field v 14 1 = 1))) := by
  have hf' : flagOf (param v 6 1) = some (decide (field v 14 1 = 1)) := flagOf_eq hf
  simp only [setAuProtectParam, auRangeParam_eq hn, hf']

theorem joinParam_eq (ha : 1 ≤ field v 8 2) (ha' : field v 8 2 ≤ 4095) (hb : 1 ≤ field v 10 2) (hb' : field v 10 2 ≤ 4095)
    (hn : field v 8 2 ≠ field v 10 2) : joinParam v = some (.join (field v 8 2) (field v 10 2)) := by
  refine if_pos ?_
  simp [regionOk, param, Config.maxRegion, ha, ha', hb, hb', hn]

end Parameters

/-- A request of the right length whose parameters parse does its work on them. -/
theorem parsed_eq {α : Type} {p v : Nat} {parse : Placement → Nat → Option α} {run : α → State → State} {w : WinCmd}
    {s : State} {a : α} (hp : field v 4 2 = p) (ha : parse s.core.ctp.placement v = some a) :
    parsed p parse run w v s = run a s := by
  simp only [parsed, sized, hp, if_true, ha]

theorem doWriteArea_eq {v : Nat} {req : Request} {w : WinCmd} {s : State} (hp : field v 4 2 = 4 + field v 10 2)
    (ha : writeAreaParam v = some req) : doWriteArea w v s = doDescRequest req s := by
  simp only [doWriteArea, ha]
  exact if_pos hp

end Sys2Proof.Regions
end

section
/-! The requests that begin with the check of one descriptor (R28, R32, R36, R39, R44 to R47, R49, R50, R53, R56). -/

namespace Sys2Proof.Regions
open Sys2Proof Sys2Proof.Machine

/-! ### Beginning -/

/-- A request write whose work is that of a descriptor request begins with its region's descriptor. -/
theorem descRequest_checksFirst {c : Instr} {s : State} {w : WinCmd} {code : Nat} {req : Request}
    {run : WinCmd → Nat → State → State} (hc : exec c s = .next (takeRequest code run s)) (hf : Fresh s.core code w)
    (hr : run w w.record (taken code w s) = doDescRequest req (taken code w s)) :
    ChecksFirst c s w code req .checkDesc (.desc req.region) := checksFirst_of_run (i := 0) hc hf hr rfl

/-- The retention minutes CREATE takes: a RING's are clamped to 1 .. 1,440. -/
def createMinutes (p : CreateParams) : Nat :=
  if p.kind = .ring then (if p.minutes = 0 then 1 else if 1440 < p.minutes then 1440 else p.minutes) else p.minutes

theorem clampMinutes_eq (m : Nat) : clampMinutes m = if m = 0 then 1 else if 1440 < m then 1440 else m := by
  unfold clampMinutes
  split
  · omega
  · split <;> omega

/-- CREATE notes the clamp, and then does its work in READY (R36). -/
theorem doCreate_eq (p : CreateParams) (s : State) :
    doCreate p s = whenReady
      (fun s => if p.share = false ∧ p.kind = .recording ∧ p.cls = .never then refuse .copyClass s
        else beginCheck .checkDesc 0 (.create { p with minutes := createMinutes p }) s)
      (noteClamp (decide (createMinutes p ≠ p.minutes)) s) := by
  by_cases hk : p.kind = .ring
  · simp only [doCreate, createMinutes, hk, decide_true, if_true, Bool.true_and, clampMinutes_eq]
  · simp only [doCreate, createMinutes, hk, decide_false, if_false, Bool.false_and, Bool.false_eq_true, ne_eq, not_true_eq_false]

/-- CREATE's parameters parse: it does its work. -/
theorem create_run {s : State} {w : WinCmd} {p : CreateParams} (hl : w.paramLength = 16)
    (hp : createParam s.core.ctp.placement w.record = some p) :
    parsed 16 createParam doCreate w w.record (taken 7 w s) = doCreate p (taken 7 w s) := parsed_eq hl hp

/-! ### What the descriptor refuses -/

/-- What the descriptor of a request's region refuses, and why (R36, R39, R44 to R46, R49, R50, R53, R56). -/
def DescRefuses (j : Job) (r : Nat) (d : Desc) (why : Reason) : Prop :=
  why = .badState ∧
      ((∃ p, j.req = .create p ∧ d.state ≠ .empty) ∨
        (∃ on a n, j.req = .assign r on a n ∧ (d.state ≠ .opened ∨ d.kind ≠ .recording)) ∨
        ((∃ on, j.req = .setLocked r on) ∨ (∃ p w, j.req = .setFlags r p w) ∨ ∃ bs, j.req = .writeArea r bs) ∧
          d.state ≠ .opened ∧ d.state ≠ .sealed ∨
        j.req = .seal r ∧ (d.state ≠ .opened ∨ d.kind ≠ .recording) ∨
        j.req = .unseal r ∧ (d.state ≠ .sealed ∨ d.kind ≠ .recording) ∨
        j.req = .delete r ∧ (d.state = .empty ∨ d.state = .retired ∨ (d.state = .opened ∨ d.state = .sealed) ∧ d.locked = true) ∨
        j.req = .purge r ∧ d.state ≠ .retired ∧ d.state ≠ .forward) ∨
    why = .copyClass ∧ j.req = .unseal r ∧ d.state = .sealed ∧ d.kind = .recording ∧ d.cls ≠ .free

theorem inUse_iff {d : Desc} : d.inUse = true ↔ d.state = .opened ∨ d.state = .sealed := by
  simp only [Desc.inUse, Bool.or_eq_true, decide_eq_true_eq]

/-- A test for a state and for the kind RECORDING fails. -/
theorem not_recordingIn {d : Desc} {st : RegionState} (h : d.state ≠ st ∨ d.kind ≠ .recording) :
    ¬(decide (d.state = st) && decide (d.kind = .recording)) = true := by
  rw [Bool.and_eq_true, decide_eq_true_eq, decide_eq_true_eq, not_and_or]
  exact h

theorem descChecked_refuses {g : Settings} {j : Job} {r : Nat} {d : Desc} {why : Reason} {c : Core}
    (h : DescRefuses j r d why) : descChecked g j d c = refuseJob g why c := by
  rcases h with ⟨rfl, ⟨p, hq, hd⟩ | ⟨on, a, n, hq, hd⟩ | ⟨hq, ho, hs⟩ | ⟨hq, hd⟩ | ⟨hq, hd⟩ | ⟨hq, hd⟩ | ⟨hq, hr, hw⟩⟩ |
    ⟨rfl, hq, hs, hk, hc⟩
  · simp only [descChecked, hq]
    exact require_refuses (by simpa using hd)
  · simp only [descChecked, hq]
    exact require_refuses (not_recordingIn hd)
  · have hu : ¬d.inUse = true := by rw [inUse_iff]; exact not_or.mpr ⟨ho, hs⟩
    rcases hq with ⟨on, hq⟩ | ⟨p, w, hq⟩ | ⟨bs, hq⟩
    · simp only [descChecked, hq]
      exact require_refuses hu
    · simp only [descChecked, hq]
      exact require_refuses hu
    · simp only [descChecked, hq]
      exact require_refuses hu
  · simp only [descChecked, hq]
    exact require_refuses (not_recordingIn hd)
  · simp only [descChecked, hq]
    exact require_refuses (not_recordingIn hd)
  · simp only [descChecked, hq]
    refine require_refuses ?_
    simpa only [Bool.not_eq_true', Bool.not_eq_false, Bool.or_eq_true, decide_eq_true_eq, Bool.and_eq_true, inUse_iff,
      or_assoc] using hd
  · simp only [descChecked, hq]
  · simp only [descChecked, hq, hs, hk, decide_true, Bool.and_self, require, if_true]
    exact if_neg (by simpa using hc)

/-! ### The statement -/

/-- Settles O38: each request parses to its work, whose check read the state of the catalogue allows or refuses; and what
the descriptor refuses is refused by the check of that descriptor. -/
theorem descriptorRequestsBegin : Obligations.DescriptorRequestsBegin := by
  unfold Obligations.DescriptorRequestsBegin
  refine ⟨?begin, ?create, ?refused⟩
  case begin =>
    intro c code p req s w v r hmem hf hp h1 h2 hflag hwritten hrange harea
    have hr : regionParam v = some r := regionParam_eq h1 h2
    simp only [List.mem_cons, Prod.mk.injEq, List.not_mem_nil, or_false] at hmem
    rcases hmem with ⟨rfl, rfl, rfl, rfl⟩ | ⟨rfl, rfl, rfl, rfl⟩ | ⟨rfl, rfl, rfl, rfl⟩ | ⟨rfl, rfl, rfl, rfl⟩ |
      ⟨rfl, rfl, rfl, rfl⟩ | ⟨rfl, rfl, rfl, rfl⟩ | ⟨rfl, rfl, rfl, rfl⟩ | ⟨rfl, rfl, rfl, rfl⟩ | ⟨rfl, rfl, rfl, rfl⟩
    · obtain ⟨hn1, hn2, hn3⟩ := hrange rfl
      exact descRequest_checksFirst rfl hf (parsed_eq hp (assignParam_eq hr (hflag (.inl rfl)) (auRangeOk_eq hn1 hn2 hn3)))
    · exact descRequest_checksFirst rfl hf (parsed_eq hp (setLockedParam_eq hr (hflag (.inr (.inl rfl)))))
    · exact descRequest_checksFirst rfl hf (parsed_eq hp hr)
    · exact descRequest_checksFirst rfl hf (parsed_eq hp hr)
    · exact descRequest_checksFirst rfl hf (parsed_eq hp hr)
    · exact descRequest_checksFirst rfl hf (parsed_eq hp hr)
    · exact descRequest_checksFirst rfl hf
        (parsed_eq hp (setFlagsParam_eq hr (hflag (.inr (.inr rfl))) (hwritten rfl)))
    · exact descRequest_checksFirst rfl hf (parsed_eq hp hr)
    · exact descRequest_checksFirst rfl hf (doWriteArea_eq hp (writeAreaParam_eq hr (harea rfl)))
  case create =>
    intro s w p hf hl hp m
    have hrun := (create_run hl hp).trans (doCreate_eq p _)
    have hready : ∀ b, (noteClamp b (taken 7 w s)).core.ctp.state = s.core.ctp.state := fun b => by
      rw [noteClamp_taken]; rfl
    refine ⟨fun hn => ?_, fun hy hc => ?_, fun hy hlost hc => ?_⟩
    · exact ⟨_, rfl, takeRequest_refused hf (hrun.trans (whenReady_refuse (by rwa [hready])))⟩
    · have h := hrun.trans (whenReady_ready (by rwa [hready]))
      rw [if_pos hc] at h
      obtain ⟨hs, -, hset⟩ := takeRequest_refused hf h
      exact ⟨_, rfl, hs, hset⟩
    · have h := hrun.trans (whenReady_ready (by rwa [hready]))
      rw [if_neg hc] at h
      obtain ⟨hb, hevu, hrest⟩ := takeRequest_begins hf hlost h
      refine ⟨_, rfl, hb, fun (hm : createMinutes p ≠ _) => ?_, fun (hm : createMinutes p = _) => ?_, hrest⟩
      · rw [hevu, decide_eq_true hm]
        exact inWord_raise_self ..
      · rw [hevu, decide_eq_false (not_not.mpr hm)]
        rfl
  case refused =>
    intro s tag x j r d why hread hs h
    exact read_refuses hread fun hj => (jobRead_checkDesc hj hs).trans (descChecked_refuses h)

end Sys2Proof.Regions
end

section
/-! The requests that begin with a map page, JOIN, and what the scans of the check phase refuse (R29 to R33, R36, R39, R41
to R43, R48, R51, R56, R57). -/

namespace Sys2Proof.Regions
open Sys2Proof Sys2Proof.Machine

/-! ### Beginning -/

/-- A request write whose work is that of a page request begins with the first page of its range. -/
theorem pageRequest_checksFirst {c : Instr} {s : State} {w : WinCmd} {code : Nat} {req : Request}
    {run : WinCmd → Nat → State → State} (hc : exec c s = .next (takeRequest code run s)) (hf : Fresh s.core code w)
    (hr : run w w.record (taken code w s) = doPageRequest req (taken code w s)) :
    ChecksFirst c s w code req .checkPages (.page (req.pages s.core.ctp.placement).1) := checksFirst_of_run hc hf hr rfl

/-- A page request of 6 parameter bytes whose AU range is good does its work on it. -/
theorem auRange_run {s : State} {w : WinCmd} {code limit : Nat} (req : Nat → Nat → Request) (hp : w.paramLength = 6)
    (hn : auRangeOk s.core.ctp.placement limit (field w.record 8 4) (field w.record 12 2) = true) :
    parsed 6 (fun p v => auRangeParam p limit v) (fun r => doPageRequest (req r.1 r.2)) w w.record (taken code w s) =
      doPageRequest (req (field w.record 8 4) (field w.record 12 2)) (taken code w s) :=
  parsed_eq (a := (field w.record 8 4, field w.record 12 2)) hp (auRangeParam_eq hn)

/-! ### Pages -/

/-- An entry of a page whose AU the request covers is among the entries of its range. -/
theorem mem_inRange {j : Job} {es : List MapEntry} {i : Nat} {e : MapEntry} (hi : es[i]? = some e)
    (hc : j.req.covers (120 * j.index + i) = true) : (e, 120 * j.index + i) ∈ j.inRange es := by
  refine List.mem_filter.mpr ⟨?_, hc⟩
  rw [List.mk_mem_zipIdx_iff_le_and_getElem?_sub]
  exact ⟨Nat.le_add_right .., by rwa [Nat.add_sub_cancel_left]⟩

/-- CREATE and SET-CLEAR refuse a page with an entry of their range that is not UNASSIGNED. -/
theorem pageChecked_refuses {g : Settings} {j : Job} {es : List MapEntry} {i : Nat} {e : MapEntry} {c : Core}
    (hq : (∃ p, j.req = .create p) ∨ ∃ a n, j.req = .setClear a n) (hi : es[i]? = some e) (he : e ≠ .unassigned)
    (hc : j.req.covers (120 * j.index + i) = true) : pageChecked g j es c = refuseJob g .conflict c := by
  have hf : ¬(((j.inRange es).map Prod.fst).all fun e => decide (e = .unassigned)) = true := fun h =>
    he (of_decide_eq_true (List.all_eq_true.mp h e (List.mem_map_of_mem (mem_inRange hi hc))))
  rcases hq with ⟨p, hq⟩ | ⟨a, n, hq⟩
  · simp only [pageChecked, hq]
    exact require_refuses hf
  · simp only [pageChecked, hq]
    exact require_refuses hf

theorem covers_iff {q : Request} {au : Nat} : q.covers au = true ↔ q.aus.1 ≤ au ∧ au < q.aus.1 + q.aus.2 := by
  simp only [Request.covers, Bool.and_eq_true, decide_eq_true_eq]

/-! ### The regions a range names -/

/-- A named region that is EMPTY makes the page that names it damaged. -/
theorem nameChecked_empty {g : Settings} {j : Job} {d : Desc} {c : Core} (hd : d.state = .empty) :
    nameChecked g j d c = refuseJob g .catalogue (raiseFlag g .catalogueDamage c) := by
  have hv : nameVerdict j d = some .catalogue := if_pos hd
  simp only [nameChecked, hv]
  rfl

/-- A named RING, a RECORDING under another key record than ASSIGN's, and one that is not OPEN under UNASSIGN. -/
theorem nameVerdict_conflict {j : Job} {d : Desc} (hd : d.state ≠ .empty)
    (hq : (∃ q on a n, j.req = .assign q on a n) ∨ ∃ a n, j.req = .unassign a n)
    (h : d.kind = .ring ∨ d.state ≠ .retired ∧ ((∃ q on a n, j.req = .assign q on a n) ∧ some d.key ≠ j.descA.map Desc.key ∨
      (∃ a n, j.req = .unassign a n) ∧ d.state ≠ .opened)) : nameVerdict j d = some .conflict := by
  by_cases hk : d.kind = .ring
  · simp only [nameVerdict, hd, hk, if_true, if_false]
  · obtain ⟨hr, h⟩ := h.resolve_left hk
    simp only [nameVerdict, hd, hk, hr, if_false]
    rcases hq with ⟨q, on, a, n, hq⟩ | ⟨a, n, hq⟩
    · simp only [hq, reduceCtorEq, exists_false, false_and, or_false] at h ⊢
      exact if_neg h.2
    · simp only [hq, reduceCtorEq, exists_false, false_and, false_or] at h ⊢
      exact if_neg h.2

theorem nameChecked_conflict {g : Settings} {j : Job} {d : Desc} {c : Core} (hv : nameVerdict j d = some .conflict) :
    nameChecked g j d c = refuseJob g .conflict c := by
  simp only [nameChecked, hv]
  rfl

/-! ### Recounts -/

/-- What the recount becomes with descriptor `d`, and whether a forward stands against the request. -/
def recounted (j : Job) (d : Desc) : Job :=
  { j with
    recount := if d.counts j.keyRecord then j.recount + 1 else j.recount
    forwardFound := j.forwardFound || (decide (d.state = .forward) && decide (d.forward = some j.leftOut)) }

/-- The recount is done with the last descriptor that is not left out. -/
theorem recountStep_last {g : Settings} {j : Job} {d : Desc} {c : Core}
    (hi : j.index = 4095 ∨ j.index = 4094 ∧ j.leftOut = 4095) :
    recountStep g j (some d) c = recountDone g (recounted j d) c := by
  have hn : ¬(if j.index + 1 = j.leftOut then j.index + 2 else j.index + 1) ≤ Config.maxRegion := by
    unfold Config.maxRegion
    split <;> omega
  exact if_neg hn

/-- CREATE with NEW refuses a key record that a descriptor counts for. -/
theorem recountDone_create {g : Settings} {j : Job} {d : Desc} {p : CreateParams} {c : Core} (hq : j.req = .create p)
    (hs : p.share = false) (h : j.recount ≠ 0 ∨ d.state ≠ .empty ∧ d.state ≠ .retired ∧ d.key = p.source) :
    recountDone g (recounted j d) c = refuseJob g .badState c := by
  have hk : j.keyRecord = p.source := by simp only [Job.keyRecord, hq, hs, Bool.false_eq_true, if_false]
  have hn : (recounted j d).recount ≠ 0 := by
    rcases h with hj | ⟨he, hr, hd⟩
    · simp only [recounted]
      split <;> omega
    · have hc : d.counts j.keyRecord = true := by
        have hst : d.inUse = true ∨ d.state = .forward := by
          rw [inUse_iff]
          cases hst : d.state
          · exact absurd hst he
          · exact .inl (.inl rfl)
          · exact .inl (.inr rfl)
          · exact .inr rfl
          · exact absurd hst hr
        simpa [Desc.counts, hk, hd] using hst
      simp only [recounted, hc, if_true]
      omega
  have hq' : (recounted j d).req = .create p := hq
  simp only [recountDone, hq']
  exact require_refuses (by simpa using hn)

/-- PURGE refuses a region that a FORWARD descriptor names. -/
theorem recountDone_purge {g : Settings} {j : Job} {d : Desc} {r : Nat} {c : Core} (hq : j.req = .purge r)
    (h : j.forwardFound = true ∨ d.state = .forward ∧ d.forward = some r) :
    recountDone g (recounted j d) c = refuseJob g .conflict c := by
  have hf : (recounted j d).forwardFound = true := by
    simpa [recounted, Job.leftOut, hq] using h
  have hq' : (recounted j d).req = .purge r := hq
  simp only [recountDone, hq']
  exact require_refuses (by simp [hf])

/-! ### JOIN -/

/-- What JOIN has read when it has read descriptor `d`. -/
def joinRead (j : Job) (a b : Nat) (d : Desc) : Job :=
  { j with
    descA := if j.index = a then some d else j.descA
    descB := if j.index = b then some d else j.descB
    forwardFound := j.forwardFound || decide (d.state = .forward) }

/-- JOIN's checks follow the last descriptor. -/
theorem joinStep_last {g : Settings} {j : Job} {a b : Nat} {d : Desc} {c : Core} (hi : j.index = 4095) :
    joinStep g j a b d c = joinChecks g (joinRead j a b d) c := by
  have hn : ¬j.index < Config.maxRegion := by unfold Config.maxRegion; omega
  exact if_neg hn

/-- A RECORDING in state OPEN or SEALED. -/
def UsedRecording (d : Desc) : Prop := d.kind = .recording ∧ (d.state = .opened ∨ d.state = .sealed)

theorem usedBoth_iff {da db : Desc} :
    (decide (da.kind = .recording) && decide (db.kind = .recording) && da.inUse && db.inUse) = true ↔
      UsedRecording da ∧ UsedRecording db := by
  simp only [UsedRecording, Bool.and_eq_true, decide_eq_true_eq, inUse_iff]
  tauto

section JoinChecks
variable {g : Settings} {j : Job} {da db : Desc} {c : Core} (ha : j.descA = some da) (hb : j.descB = some db)
include ha hb

theorem joinChecks_unused (h : ¬(UsedRecording da ∧ UsedRecording db)) : joinChecks g j c = refuseJob g .badState c := by
  rw [← usedBoth_iff, Bool.not_eq_true] at h
  simp only [joinChecks, ha, hb, h, Bool.not_false, if_true]

variable (hu : UsedRecording da) (hv : UsedRecording db)
include hu hv

theorem joinChecks_key (h : da.key ≠ db.key ∨ da.unit ≠ db.unit) : joinChecks g j c = refuseJob g .conflict c := by
  have hw := (usedBoth_iff).mpr ⟨hu, hv⟩
  simp only [joinChecks, ha, hb, hw, Bool.not_true, Bool.false_eq_true, if_false, if_pos h]

theorem joinChecks_class (hk : da.key = db.key) (hn : da.unit = db.unit) (h : da.cls ≠ db.cls) :
    joinChecks g j c = refuseJob g .copyClass c := by
  have hw := (usedBoth_iff).mpr ⟨hu, hv⟩
  simp only [joinChecks, ha, hb, hw, Bool.not_true, Bool.false_eq_true, if_false, hk, hn, ne_eq, not_true_eq_false, or_self,
    if_pos h]

theorem joinChecks_forward (hk : da.key = db.key) (hn : da.unit = db.unit) (hc : da.cls = db.cls)
    (h : j.forwardFound = true) : joinChecks g j c = refuseJob g .conflict c := by
  have hw := (usedBoth_iff).mpr ⟨hu, hv⟩
  simp only [joinChecks, ha, hb, hw, Bool.not_true, Bool.false_eq_true, if_false, hk, hn, hc, ne_eq, not_true_eq_false,
    or_self, h, if_true]

end JoinChecks

/-! ### The forward target of PURGE -/

/-- PURGE finds a forward target that is neither RETIRED nor valid for its region. -/
theorem targetChecked_refuses {g : Settings} {j : Job} {b d : Desc} {c : Core} (hb : j.descA = some b)
    (hr : d.state ≠ .retired)
    (h : ¬((d.state = .opened ∨ d.state = .sealed) ∧ d.kind = .recording ∧ d.key = b.key ∧ d.unit = b.unit)) :
    targetChecked g j d c = refuseJob g .catalogue (raiseFlag g .catalogueDamage c) := by
  have hv : ¬(d.inUse && b.validTarget d) = true := by
    simpa only [Bool.and_eq_true, inUse_iff, Desc.validTarget, decide_eq_true_eq, and_assoc] using h
  simp only [targetChecked, hb, if_neg hv, if_neg hr]

/-! ### The statement -/

/-- Settles O39: the page requests and JOIN parse to their work; each refusal of the check phase is that of one stage, on
the page, descriptor or key record it reads. -/
theorem pageRequestsAndJoinBegin : Obligations.PageRequestsAndJoinBegin := by
  unfold Obligations.PageRequestsAndJoinBegin
  refine ⟨?begin, ?pages, ?names, ?create, ?sourceKey, ?join, ?purge⟩
  case begin =>
    intro s w v a n
    refine ⟨fun c code p limit req hmem hf hp h1 h2 h3 hflag => ?_, fun hf hp h1 h2 h3 h4 h5 => ?_⟩
    · simp only [List.mem_cons, Prod.mk.injEq, List.not_mem_nil, or_false] at hmem
      have hn : auRangeOk s.core.ctp.placement limit a n = true := auRangeOk_eq h1 h2 h3
      rcases hmem with ⟨rfl, rfl, rfl, rfl, rfl⟩ | ⟨rfl, rfl, rfl, rfl, rfl⟩ | ⟨rfl, rfl, rfl, rfl, rfl⟩ |
        ⟨rfl, rfl, rfl, rfl, rfl⟩
      · exact pageRequest_checksFirst rfl hf (auRange_run .unassign hp hn)
      · exact pageRequest_checksFirst rfl hf (auRange_run .setClear hp hn)
      · exact pageRequest_checksFirst rfl hf (parsed_eq hp (setAuProtectParam_eq hn (hflag rfl)))
      · exact pageRequest_checksFirst rfl hf (auRange_run .readMap hp hn)
    · exact checksFirst_of_run rfl hf (parsed_eq hp (joinParam_eq h1 h2 h3 h4 h5)) rfl
  case pages =>
    intro s tag x j es i e hread hs hi he hq
    refine read_refuses hread fun hj => (jobRead_checkPages hj hs).trans ?_
    rcases hq with ⟨p, hq, hc⟩ | ⟨a, n, hq, hc⟩
    · exact pageChecked_refuses (.inl ⟨p, hq⟩) hi he (by rw [hq, covers_iff]; exact hc)
    · exact pageChecked_refuses (.inr ⟨a, n, hq⟩) hi he (by rw [hq, covers_iff]; exact hc)
  case names =>
    intro s tag x j r d hread hs hq
    refine ⟨fun hd => read_refuses_damage hread fun hj => ?_, fun hd h => read_refuses hread fun hj => ?_⟩
    · exact (jobRead_checkNames hj hs).trans (nameChecked_empty hd)
    · exact (jobRead_checkNames hj hs).trans (nameChecked_conflict (nameVerdict_conflict hd hq h))
  case create =>
    intro s tag x j r d p hread hq h
    rcases h with ⟨hs, hi, hn, h⟩ | ⟨hs, h⟩
    · exact read_refuses hread fun hj =>
        (jobRead_checkRecount hj hs).trans ((recountStep_last (.inl hi)).trans (recountDone_create hq hn h))
    · refine read_refuses hread fun hj => (jobRead_checkSource hj hs hq).trans (require_refuses ?_)
      simp only [Bool.and_eq_true, inUse_iff, decide_eq_true_eq]
      tauto
  case sourceKey =>
    intro s tag x j k rec hread hs hc
    exact read_refuses hread fun hj => (jobRead_checkSourceKey hj hs).trans (require_refuses (by simpa using hc))
  case join =>
    intro s tag x j a b d da db hread hs hi hq ha hb used refused
    have ha' : (joinRead j a b d).descA = some da := by simpa only [joinRead, hi, eq_comm] using ha
    have hb' : (joinRead j a b d).descB = some db := by simpa only [joinRead, hi, eq_comm] using hb
    have refuses : ∀ {why}, (∀ {g c}, joinChecks g (joinRead j a b d) c = refuseJob g why c) → refused why := fun h =>
      read_refuses hread fun hj => ((jobRead_checkAll hj hs hq).trans (joinStep_last hi)).trans h
    refine ⟨fun h => refuses (joinChecks_unused ha' hb' h), fun hu hv h => refuses (joinChecks_key ha' hb' hu hv h),
      fun hu hv hk hn h => refuses (joinChecks_class ha' hb' hu hv hk hn h), fun hu hv hk hn hc h => refuses ?_⟩
    exact joinChecks_forward ha' hb' hu hv hk hn hc (by simpa only [joinRead, Bool.or_eq_true, decide_eq_true_eq] using h)
  case purge =>
    intro s tag x j r q d hread hq
    refine ⟨fun hs hi h => read_refuses hread fun hj => ?_, fun b hs hb hr h => read_refuses_damage hread fun hj => ?_⟩
    · have hr : j.leftOut = r := by simp only [Job.leftOut, hq]
      have hl : j.index = 4095 ∨ j.index = 4094 ∧ j.leftOut = 4095 := by omega
      exact (jobRead_checkRecount hj hs).trans ((recountStep_last hl).trans (recountDone_purge hq h))
    · exact (jobRead_checkTarget hj hs).trans (targetChecked_refuses hb hr h)

end Sys2Proof.Regions
end

section
/-! What each edit writes under its lock (R24, R29, R30, R32, R37, R38, R40 to R46, R49, R50, R52, R54, R56, R57, R126). -/

namespace Sys2Proof.Regions
open Sys2Proof Sys2Proof.Machine

/-! ### Map entries -/

section Entries
variable {j : Job} {au : Nat} {e : MapEntry}

/-- A change of the AUs of a range, as the model tests for them. -/
theorem ite_not_covers (q : Request) (au : Nat) (x y : MapEntry) : (if !q.covers au then x else y) =
    if q.aus.1 ≤ au ∧ au < q.aus.1 + q.aus.2 then y else x := by
  by_cases h : q.covers au = true
  · rw [if_pos (covers_iff.mp h), h]; rfl
  · rw [if_neg (mt covers_iff.mpr h), Bool.eq_false_iff.mpr h]; rfl

theorem newEntry_create {p : CreateParams} (hq : j.req = .create p) : j.newEntry au e =
    if p.firstAu ≤ au ∧ au < p.firstAu + p.auCount then .region p.region false else e := by
  simp only [Job.newEntry, hq, ite_not_covers]
  rfl

theorem newEntry_assign {r a n : Nat} {on : Bool} (hq : j.req = .assign r on a n) : j.newEntry au e =
    if a ≤ au ∧ au < a + n then .region r on else e := by
  simp only [Job.newEntry, hq, ite_not_covers]
  rfl

theorem newEntry_unassign {a n : Nat} (hq : j.req = .unassign a n) : j.newEntry au e =
    if a ≤ au ∧ au < a + n then .unassigned else e := by
  simp only [Job.newEntry, hq, ite_not_covers]
  rfl

theorem newEntry_setClear {a n : Nat} (hq : j.req = .setClear a n) : j.newEntry au e =
    if a ≤ au ∧ au < a + n then .clear false else e := by
  simp only [Job.newEntry, hq, ite_not_covers]
  rfl

theorem newEntry_setAuProtect {a n : Nat} {on : Bool} (hq : j.req = .setAuProtect a n on) : j.newEntry au e =
    if a ≤ au ∧ au < a + n then (match e with
      | .unassigned => .unassigned
      | .clear _ => .clear on
      | .region r _ => .region r on) else e := by
  simp only [Job.newEntry, hq, ite_not_covers]
  rfl

theorem newEntry_join {a b : Nat} (hq : j.req = .join a b) : j.newEntry au e = match e with
    | .region r p => if r = b then .region a p else .region r p
    | e => e := by
  simp only [Job.newEntry, hq]
  cases e <;> rfl

theorem newEntry_purge {b : Nat} (hq : j.req = .purge b) : j.newEntry au e = match e with
    | .region r p => if r = b then (match j.target with
      | some a => .region a p
      | none => .unassigned) else .region r p
    | e => e := by
  simp only [Job.newEntry, hq]
  cases e <;> rfl

end Entries

/-! ### Going on from an unchanged page -/

/-- From `c` to `d` the drive link's state stands and no catalogue write was asked for. -/
structure AsksNoWrite (c d : Core) : Prop where
  link : d.dlp.link = c.dlp.link
  writes : ∀ a ∈ d.ctp.queue ++ d.dlp.ctpLine, a.dir ≠ .read → a ∈ c.ctp.queue ++ c.dlp.ctpLine

theorem LeavesRequest.asksNoWrite {c d : Core} (h : LeavesRequest c d) : AsksNoWrite c d := ⟨h.link, h.writes⟩

/-- Going to a write stage asks for a read at most. -/
theorem toWrite_asksNoWrite (st : Stage) (i : Nat) (j : Job) (c : Core) : AsksNoWrite c (toWrite st i j c) := by
  unfold toWrite
  dsimp only
  split
  · exact ⟨rfl, (takeRead_leaves _ .request (enterLock _ .request (setJob _ c))).writes⟩
  · exact ⟨rfl, fun _ ha _ => ha⟩

/-- Going to a write stage locks the sector of that stage at most. -/
theorem toWrite_locks {st : Stage} {i : Nat} {j : Job} {c : Core} {l : Lock} (h : l ∈ (toWrite st i j c).ctp.locks) :
    l ∈ c.ctp.locks ∨ l.sector = ({ j with stage := st, index := i } : Job).sector := by
  unfold toWrite at h
  dsimp only at h
  split at h
  · rcases List.mem_append.mp h with h | h
    · exact .inl h
    · exact .inr (congrArg Lock.sector (List.mem_singleton.mp h))
  · exact .inl h

/-- Ending the request asks for no write. -/
theorem finishJob_asksNoWrite (g : Settings) (results : List Byte) (c : Core) : AsksNoWrite c (finishJob g results c) :=
  ⟨rfl, fun _ ha _ => ha⟩

/-- The step after a page asks for no write, and locks another sector at most. -/
theorem nextPage_goesOn (g : Settings) (j : Job) (c : Core) : AsksNoWrite c (nextPage g j c) ∧
    ∀ l ∈ (nextPage g j c).ctp.locks, l ∈ c.ctp.locks ∨ l.sector ≠ .page j.index := by
  have other : ∀ {st i}, ({ j with stage := st, index := i } : Job).sector ≠ .page j.index →
      AsksNoWrite c (toWrite st i j c) ∧ ∀ l ∈ (toWrite st i j c).ctp.locks, l ∈ c.ctp.locks ∨ l.sector ≠ .page j.index :=
    fun hx => ⟨toWrite_asksNoWrite .., fun l hl => (toWrite_locks hl).imp_right fun h => ne_of_eq_of_ne h hx⟩
  unfold nextPage
  split
  · exact other (by simp [Job.sector])
  · unfold afterPages
    split
    · exact other (by simp [Job.sector])
    · split
      · exact other (by simp [Job.sector])
      · exact other (by simp [Job.sector])
    · exact ⟨finishJob_asksNoWrite .., fun l hl => .inl hl⟩

/-- The lock of the request on a page leaves the list when it is released. -/
theorem releaseHeld_locks {g : Settings} {c : Core} {p : Nat} (hh : ∃ l ∈ c.ctp.locks, l.holder = .request)
    (hp : ∀ l ∈ c.ctp.locks, l.holder = .request → l.sector = .page p) :
    ∀ l ∈ (releaseHeld g c).ctp.locks, l.sector ≠ .page p := by
  obtain ⟨l, hl, hr⟩ := hh
  cases hf : c.ctp.locks.find? fun l => decide (l.holder = .request) with
  | none => exact absurd (decide_eq_true hr) (List.find?_eq_none.mp hf l hl)
  | some m =>
    have hm : m.sector = .page p := hp m (List.mem_of_find?_eq_some hf) (by simpa using List.find?_some hf)
    have he : releaseHeld g c = dropLock (.page p) c := by simp only [releaseHeld, hf, hm, releaseLock]
    rw [he]
    exact fun k hk => of_decide_eq_true (List.mem_filter.mp hk).2

/-- A page that the request does not change: the next access is a read, and the page's lock is released. -/
theorem read_unchangedPage {s : State} {tag : Fin 16} {data : Sector} {j : Job} {es : List MapEntry}
    (h : JobReads s tag.val data j (.page j.index) (.page es)) (hs : j.stage = .writePages) (hn : changedAus j es = []) :
    ∃ t, exec (.catalogueReadComplete tag data) s = .next t ∧ t.set = s.set ∧
      (∀ a ∈ t.core.ctp.queue ++ t.core.dlp.ctpLine, a.dir ≠ .read → a ∈ s.core.ctp.queue ++ s.core.dlp.ctpLine) ∧
      ((∃ l ∈ s.core.ctp.locks, l.holder = .request) →
        (∀ l ∈ s.core.ctp.locks, l.holder = .request → l.sector = .page j.index) →
        ∀ l ∈ t.core.ctp.locks, l.sector ≠ .page j.index) := by
  have hr := releaseHeld_leaves s.set (dropReq tag.val s.core)
  obtain ⟨hw, hk⟩ := nextPage_goesOn s.set j (releaseHeld s.set (dropReq tag.val s.core))
  obtain ⟨d, ht, hp⟩ := exec_readComplete_movesOn h (jobRead_writePages_same h.job hs hn) (hw.link.trans hr.link)
  refine ⟨_, ht, rfl, fun a ha hd => hr.writes a (hw.writes a ((hp.accesses a).mp ha) hd) hd, fun hh hl l hm => ?_⟩
  rcases hk l (hp.locks ▸ hm) with hm | hm
  · exact releaseHeld_locks (c := dropReq tag.val s.core) hh hl l hm
  · exact hm

/-! ### Key records -/

section KeyRecords
variable {j : Job} {k : KeyRec}

theorem newKey_create {p : CreateParams} (hq : j.req = .create p) : j.newKey k =
    some (if p.share then { k with count := k.count + 1 }
      else { live := true, unit := p.unit, count := 1, wrapped := j.wrapped }) := by simp only [Job.newKey, hq]

theorem newKey_lower (hq : (∃ r, j.req = .delete r) ∨ ∃ a b, j.req = .join a b) :
    j.newKey k = if k.live then some (k.withCount (k.count - 1)) else none := by
  rcases hq with ⟨r, hq⟩ | ⟨a, b, hq⟩
  · simp only [Job.newKey, hq]
  · simp only [Job.newKey, hq]

theorem newKey_purge {r : Nat} (hq : j.req = .purge r) (hl : k.live = true) (hc : j.recount < k.count) :
    j.newKey k = some (k.withCount j.recount) := by
  simp only [Job.newKey, hq, hl, hc, decide_true, Bool.and_self, if_true]

end KeyRecords

/-- The key record `new` that a request makes of `rec`: CREATE's, one count less for DELETE and JOIN, PURGE's recount. -/
def KeyChange (j : Job) (rec new : KeyRec) : Prop :=
  (∃ p, j.req = .create p ∧ new = if p.share then { rec with count := rec.count + 1 }
      else { live := true, unit := p.unit, count := 1, wrapped := j.wrapped }) ∨
    ((∃ r, j.req = .delete r) ∨ ∃ a b, j.req = .join a b) ∧ rec.live = true ∧ new = rec.withCount (rec.count - 1) ∨
    (∃ r, j.req = .purge r) ∧ rec.live = true ∧ j.recount < rec.count ∧ new = rec.withCount j.recount

theorem newKey_of_keyChange {j : Job} {rec new : KeyRec} (h : KeyChange j rec new) : j.newKey rec = some new := by
  rcases h with ⟨p, hq, rfl⟩ | ⟨hq, hl, rfl⟩ | ⟨⟨r, hq⟩, hl, hc, rfl⟩
  · exact newKey_create hq
  · rw [newKey_lower hq, if_pos hl]
  · exact newKey_purge hq hl hc

/-- DELETE and JOIN write every LIVE key record they read. -/
theorem live_of_newKey_lower {j : Job} {rec new : KeyRec} (hq : (∃ r, j.req = .delete r) ∨ ∃ a b, j.req = .join a b)
    (hn : j.newKey rec = some new) : rec.live ≠ false := by
  intro hl
  rw [newKey_lower hq, if_neg (Bool.eq_false_iff.mp hl)] at hn
  cases hn

/-- A key record that is released unwritten: a request with no further step ends with its results. -/
theorem read_unwrittenKey {s : State} {tag : Fin 16} {data : Sector} {j : Job} {k : Nat} {rec : KeyRec}
    (h : JobReads s tag.val data j (.key k) (.key rec)) (hs : j.stage = .writeKey) (hn : j.newKey rec = none) :
    ∃ t, exec (.catalogueReadComplete tag data) s = .next t ∧ ∀ results : List Byte,
      (∀ g c, afterKey g { j with keyCount := rec.count } false c = finishJob g results c) → Ends s t (.done results) := by
  refine ⟨_, exec_readComplete h, fun results hr => ?_⟩
  have hd := releaseHeld_leaves s.set (setJob { j with keyCount := rec.count } (dropReq tag.val s.core))
  obtain ⟨t, ht, he, -⟩ := read_ends h hd.link (by rw [hd.mgw]; rfl)
    ((jobRead_writeKey_none (c := dropReq tag.val s.core) h.job hs hn).trans (hr _ _))
  cases (exec_readComplete h).symm.trans ht
  exact he

/-! ### The statement -/

/-- Settles O46: each request's own change is what the model writes from the content it reads under the lock; where it
changes nothing, the sector is released and the request goes on. -/
theorem editsWriteTheirChange : Obligations.EditsWriteTheirChange := by
  unfold Obligations.EditsWriteTheirChange
  refine ⟨?desc, ?page, ?key, ?header⟩
  case desc =>
    intro s tag x j r d d' hread h
    have written (hs : j.stage = .writeDesc) (hr : j.req.region = r) (hn : j.newDesc d = some d') :
        ∃ t, exec (.catalogueReadComplete tag x) s = .next t ∧ Writes s t (.desc r) (.desc d') (.edit r) ∧
          t.core.mgw = s.core.mgw := by
      subst hr
      exact read_writes_same hread fun hj => jobRead_writeDesc hj hs hn
    rcases h with ⟨hs, ⟨p, src, hq, rfl, hb, rfl⟩ | ⟨on, hq, rfl⟩ | ⟨p, w, hq, rfl⟩ | ⟨bs, hq, rfl⟩ | ⟨hq, rfl⟩ | ⟨hq, rfl⟩ |
      ⟨hq, rfl⟩ | ⟨b, hq, rfl⟩ | ⟨m, p, hq, hd, hp, rfl⟩⟩ | ⟨hs, hq, rfl⟩
    · refine written hs (by rw [hq]; rfl) ?_
      cases hp : p.share with
      | true => simp only [Job.newDesc, hq, createdDesc, Job.keyRecord, hp, hb hp, if_true, Option.map_some, Option.getD_some]
      | false => simp only [Job.newDesc, hq, createdDesc, Job.keyRecord, hp, Bool.false_eq_true, if_false]
    · exact written hs (by rw [hq]; rfl) (by simp only [Job.newDesc, hq])
    · exact written hs (by rw [hq]; rfl) (by simp only [Job.newDesc, hq])
    · exact written hs (by rw [hq]; rfl) (by simp only [Job.newDesc, hq])
    · exact written hs (by rw [hq]; rfl) (by simp only [Job.newDesc, hq])
    · exact written hs (by rw [hq]; rfl) (by simp only [Job.newDesc, hq])
    · rcases hq with hq | hq
      · exact written hs (by rw [hq]; rfl) (by simp only [Job.newDesc, hq])
      · exact written hs (by rw [hq]; rfl) (by simp only [Job.newDesc, hq])
    · exact written hs (by rw [hq]; rfl) (by simp only [Job.newDesc, hq])
    · exact written hs (by rw [hq]; rfl) (by simp only [Job.newDesc, hq, hd, hp, decide_true])
    · have hr : j.req.region = r := by
        rcases hq with ⟨b, hq⟩ | hq
        · rw [hq]; rfl
        · rw [hq]; rfl
      subst hr
      exact read_writes_same hread fun hj => jobRead_writeLast hj hs
  case page =>
    intro s tag x j es new hread hs hnew at' aus
    obtain rfl : new = j.newEntry := by
      funext au e
      rcases hnew with ⟨p, hq, hn⟩ | ⟨r, on, a, n, hq, hn⟩ | ⟨a, n, hq, hn⟩ | ⟨a, n, hq, hn⟩ | ⟨a, n, on, hq, hn⟩ |
        ⟨a, b, hq, hn⟩ | ⟨b, hq, hn⟩
      · exact (hn au e).trans (newEntry_create hq).symm
      · exact (hn au e).trans (newEntry_assign hq).symm
      · exact (hn au e).trans (newEntry_unassign hq).symm
      · exact (hn au e).trans (newEntry_setClear hq).symm
      · exact (hn au e).trans (newEntry_setAuProtect hq).symm
      · exact (hn au e).trans (newEntry_join hq).symm
      · exact (hn au e).trans (newEntry_purge hq).symm
    by_cases hn : changedAus j es = []
    · obtain ⟨t, ht, h⟩ := read_unchangedPage hread hs hn
      exact ⟨t, ht, fun hne => absurd hn hne, fun _ => h⟩
    · obtain ⟨t, ht, hw, hm⟩ := read_writes hread fun hj => jobRead_writePages hj hs hn
      exact ⟨t, ht, fun _ => ⟨hw, congrArg Mgw.job hm⟩, fun he => absurd he hn⟩
  case key =>
    intro s tag x j k rec hread hs hk down
    cases hn : j.newKey rec with
    | some k' =>
      obtain ⟨t, ht, hw, hm⟩ := read_writes hread fun hj => jobRead_writeKey hj hs hn
      refine ⟨t, ht, fun new h => ?_, fun hl => ⟨fun r hq => ?_, fun a b hq => ?_⟩⟩
      · obtain rfl : k' = new := Option.some.inj (hn.symm.trans (newKey_of_keyChange h))
        exact ⟨hk ▸ hw, congrArg Mgw.job hm⟩
      · exact absurd hl (live_of_newKey_lower (.inl ⟨r, hq⟩) hn)
      · exact absurd hl (live_of_newKey_lower (.inr ⟨a, b, hq⟩) hn)
    | none =>
      obtain ⟨t, ht, he⟩ := read_unwrittenKey hread hs hn
      refine ⟨t, ht, fun new h => ?_, fun _ => ⟨fun r hq => he _ ?_, fun a b hq => he _ ?_⟩⟩
      · cases hn.symm.trans (newKey_of_keyChange h)
      · simp only [afterKey, hq, Bool.false_eq_true, if_false, implies_true]
      · simp only [afterKey, hq, Bool.false_eq_true, if_false, implies_true]
  case header =>
    intro s tag x j h p hread hs hq
    exact read_writes_same hread fun hj => jobRead_writeHeader hj hs hq

end Sys2Proof.Regions
end
